-- ==== Sys2Proof/Word.lean ====
section
/-!
DEFINITION. The data types the rules of spec/ speak in (00_scope.md R8, R10): a word is 32 bits, a byte 8 bits,
a halfword 16 bits; general and COP0 registers are numbered 0 to 31.
-/

namespace Sys2Proof

/-- A `u32` (R10). -/
abbrev Word := BitVec 32

/-- A halfword, the unit LH, LHU and SH move (20_memory.md R206). -/
abbrev Half := BitVec 16

/-- A byte, the unit memory is addressed in (R200). -/
abbrev Byte := BitVec 8

/-- A general register's number, or a COP0 register's number (R100, R125). -/
abbrev RegIdx := Fin 32

end Sys2Proof
end

