-- ==== Sys2Proof/Machine/Flags.lean ====
section
/-!
DEFINITION. The block has no flags register (10_state.md R107). What decides a trap or a branch is computed here from
register values: the signed-overflow tests (41_arith.md R511) and the comparisons.
-/

namespace Sys2Proof.Machine

/-- Overflow of `a + b`: `((a ^ r) & (b ^ r))[31]` with `r = a + b` (R511). -/
def addOverflows (a b : Word) : Bool :=
  let r := a + b
  ((a ^^^ r) &&& (b ^^^ r)).getLsbD 31

/-- Overflow of `a - b`: `((a ^ b) & (a ^ r))[31]` with `r = a - b` (R511, 90_conflicts.md C5). -/
def subOverflows (a b : Word) : Bool :=
  let r := a - b
  ((a ^^^ b) &&& (a ^^^ r)).getLsbD 31

/-- `s32(a) < s32(b)`. -/
def lessSigned (a b : Word) : Bool := decide (a.toInt < b.toInt)

/-- `a < b` on unsigned values. -/
def lessUnsigned (a b : Word) : Bool := decide (a.toNat < b.toNat)

/-- `c ? 1 : 0`. -/
def wordOfBool (c : Bool) : Word := if c then 1#32 else 0#32

end Sys2Proof.Machine
end

