-- ==== Sys2Proof/Config.lean ====
section
/-!
DEFINITION. What an implementation or a launch fixes and the spec leaves open (00_scope.md R9): the draws and the
DMA transfer pump. Every constant here is opaque: it has no body, so a claim holds whatever it is. A draw is
applied to State.draws, a counter that every draw advances, so no two draws of one run are related
(assumption log entries 2 and 4).
-/

namespace Sys2Proof

/-- The DMA controller's registers, seven channels and two shared registers (10_state.md R140). -/
structure DmaRegs where
  madr : Vector Word 7
  bcr  : Vector Word 7
  chcr : Vector Word 7
  dpcr : Word
  dicr : Word
  deriving DecidableEq, Repr, Inhabited

/-- What one call of the DMA pump does (20_memory.md R241): the registers after it, the bytes it writes to RAM
(each at its index in RAM) and the GP0 words it emits. -/
structure PumpEffect where
  dma       : DmaRegs
  ramWrites : List Host.Cell
  gp0       : List Word
  deriving DecidableEq, Repr, Inhabited

/-- `draw_unmapped_narrow`, 8 bits: a byte read of an unmapped address (R219). -/
opaque Config.drawUnmappedByte : Nat → Byte

/-- `draw_unmapped_narrow`, 16 bits: a halfword read of an unmapped address (R219). -/
opaque Config.drawUnmappedHalf : Nat → Half

/-- `draw_io_stub`, 8 bits (R220). -/
opaque Config.drawIoByte : Nat → Byte

/-- `draw_io_stub`, 16 bits (R220). -/
opaque Config.drawIoHalf : Nat → Half

/-- `draw_io_stub`, 32 bits (R220). -/
opaque Config.drawIoWord : Nat → Word

/-- `draw_dma_hole` (R232). -/
opaque Config.drawDmaHole : Nat → Word

/-- `draw_gpu_read` (R236). -/
opaque Config.drawGpuRead : Nat → Word

/-- Whether a non-zero value of a channel's CHCR is one of the patterns the DMA pump recognises (R241: "inspects
each channel's CHCR for two recognized bit patterns"; the source gives neither pattern). -/
opaque Config.chcrPattern : Fin 7 → Word → Bool

/-- `DMA_PUMP` where some channel holds a recognised pattern: a function of the DMA registers and RAM (R241). -/
opaque Config.dmaPump : DmaRegs → List Host.Cell → PumpEffect

end Sys2Proof
end

