-- ==== Sys2Proof/Machine/Memory.lean ====
section
/-!
DEFINITION. Memory as plain data: the bytes of RAM, scratchpad and BIOS ROM, each at the physical address of its
device's first image (20_memory.md R211), in one list of (address, byte) cells. Canonical form: addresses strictly
rising, no cell holding what an unlisted address reads as.
-/

namespace Sys2Proof.Machine

/-- The bytes that differ from an unlisted address's. -/
abbrev Memory := List Host.Cell

/-- What an address with no cell reads as: 0x00, the reset contents of RAM and scratchpad (R135, R137). A BIOS byte
with no cell is a zero byte of the image (assumption log entry 5). -/
def Memory.unlisted : Byte := 0x00#8

/-- The byte at address `a`. -/
def Memory.read (m : Memory) (a : Nat) : Byte :=
  match m with
  | [] => Memory.unlisted
  | c :: rest => if c.1 = a then c.2 else Memory.read rest a

/-- `m` with no cell for `a`. -/
def Memory.erase (m : Memory) (a : Nat) : Memory := m.filter (fun c => c.1 != a)

/-- `m` with a cell for `a` before the first higher address. -/
def Memory.insertCell (m : Memory) (a : Nat) (b : Byte) : Memory :=
  match m with
  | [] => [(a, b)]
  | c :: rest => if a < c.1 then (a, b) :: c :: rest else c :: Memory.insertCell rest a b

/-- Byte `b` stored at address `a`. Storing the value an unlisted address reads as removes the cell. -/
def Memory.write (m : Memory) (a : Nat) (b : Byte) : Memory :=
  if b = Memory.unlisted then m.erase a else (m.erase a).insertCell a b

/-- Several bytes stored, the first of the list first. -/
def Memory.writeAll (m : Memory) (cells : List Host.Cell) : Memory :=
  match cells with
  | [] => m
  | c :: rest => Memory.writeAll (m.write c.1 c.2) rest

/-- The canonical form. -/
abbrev Memory.wf (m : Memory) : Prop :=
  m.Pairwise (fun c d => c.1 < d.1) ∧ ∀ c ∈ m, c.2 ≠ Memory.unlisted

/-- The bytes of `bytes` as cells from address `base` up. -/
def cellsFrom (base : Nat) (bytes : List Byte) : List Host.Cell :=
  match bytes with
  | [] => []
  | b :: rest => (base, b) :: cellsFrom (base + 1) rest

/-! ### The byte devices (00_scope.md R8, 20_memory.md R210 to R215) -/

/-- A device that stores bytes: the physical address of its byte 0, and its size. -/
structure ByteDevice where
  base : Nat
  size : Nat
  deriving DecidableEq, Repr

/-- 2 MiB of RAM (R135). -/
def ram : ByteDevice := ⟨0x00000000, 0x200000⟩

/-- 1 KiB of scratchpad (R137). -/
def scratchpad : ByteDevice := ⟨0x1F800000, 0x400⟩

/-- 512 KiB of BIOS ROM (R136). -/
def bios : ByteDevice := ⟨0x1FC00000, 0x80000⟩

/-- The address of byte `k` of an access at masked address `m`: `dev[(m + k) & (size - 1)]` (R210). -/
def ByteDevice.cell (d : ByteDevice) (m k : Nat) : Nat := d.base + (m + k) % d.size

/-- An address that names a byte of `d`. -/
abbrev ByteDevice.holds (d : ByteDevice) (a : Nat) : Prop := d.base ≤ a ∧ a < d.base + d.size

/-- Every cell is a byte of RAM, scratchpad or BIOS ROM. -/
abbrev Memory.located (m : Memory) : Prop :=
  ∀ c ∈ m, ram.holds c.1 ∨ scratchpad.holds c.1 ∨ bios.holds c.1

/-- The part of memory that is RAM, which the DMA pump reads (R241). -/
def Memory.ramPart (m : Memory) : Memory := m.filter (fun c => decide (ram.holds c.1))

/-- Memory with `image` in BIOS ROM and every other byte unlisted (R1302). -/
def biosMemory (image : List Byte) : Memory :=
  Memory.writeAll [] (cellsFrom bios.base (image.take bios.size))

end Sys2Proof.Machine
end

