-- ==== Sys2Proof/Machine/Reset.lean ====
section
/-!
DEFINITION. The values reset installs (70_reset_and_hazards.md R1300, R1301). State.reset puts them together.
-/

namespace Sys2Proof.Machine

/-- Every general register, `hi`, `lo`, `branch_address`: R1300. -/
def resetWord : Word := 0x00000000#32

/-- The first byte of BIOS ROM in KSEG1 (R1301). -/
def resetPc : Word := 0xBFC00000#32

/-- All general registers (R1300). -/
def resetGprs : Vector Word 32 := Vector.replicate 32 resetWord

/-- PRID (R132, R1300). -/
def resetPrid : Word := 0x00000002#32

/-- The COP0 bank: zero but for PRID, register 15 (R1300). -/
def resetCop0 : Vector Word 32 := (Vector.replicate 32 resetWord).set 15 resetPrid

/-- The DMA registers: zero but for DPCR (R140, R1300). -/
def resetDma : DmaRegs where
  madr := Vector.replicate 7 resetWord
  bcr  := Vector.replicate 7 resetWord
  chcr := Vector.replicate 7 resetWord
  dpcr := 0x07654321#32
  dicr := resetWord

/-- DESIGN CHOICE, unsafe (assumption log entry 5): the image State.reset takes for the launch parameter
`BIOS_IMAGE` (R1302), all zero bytes. State.resetWithBios takes any image. -/
def resetBiosImage : List Byte := []

end Sys2Proof.Machine
end

