-- ==== Sys2Proof/Syntax.lean ====
section
/-!
DEFINITION. The instruction set: one constructor for each row of spec/opcode_table.json (30_encoding.md R330, 61
instructions). Operands stand in the order of the assembler forms of R350. A shift amount is a count (WellFormed
bounds it by its 5-bit field); an immediate, a jump target and a SYSCALL or BREAK code are the fields' bits.
-/

namespace Sys2Proof

/-- The 61 admitted instructions (R330). -/
inductive Instr where
  -- Integer add, subtract and compare (41_arith.md)
  /-- ADD, R500. -/
  | add (rd : RegIdx) (rs : RegIdx) (rt : RegIdx)
  /-- ADDU, R501. -/
  | addu (rd : RegIdx) (rs : RegIdx) (rt : RegIdx)
  /-- SUB, R502. -/
  | sub (rd : RegIdx) (rs : RegIdx) (rt : RegIdx)
  /-- SUBU, R503. -/
  | subu (rd : RegIdx) (rs : RegIdx) (rt : RegIdx)
  /-- SLT, R504. -/
  | slt (rd : RegIdx) (rs : RegIdx) (rt : RegIdx)
  /-- SLTU, R505. -/
  | sltu (rd : RegIdx) (rs : RegIdx) (rt : RegIdx)
  /-- ADDI, R506. -/
  | addi (rt : RegIdx) (rs : RegIdx) (imm : BitVec 16)
  /-- ADDIU, R507. -/
  | addiu (rt : RegIdx) (rs : RegIdx) (imm : BitVec 16)
  /-- SLTI, R508. -/
  | slti (rt : RegIdx) (rs : RegIdx) (imm : BitVec 16)
  /-- SLTIU, R509. -/
  | sltiu (rt : RegIdx) (rs : RegIdx) (imm : BitVec 16)
  -- Multiply, divide and HI/LO moves (42_muldiv.md)
  /-- MULT, R600. -/
  | mult (rs : RegIdx) (rt : RegIdx)
  /-- MULTU, R601. -/
  | multu (rs : RegIdx) (rt : RegIdx)
  /-- DIV, R602. -/
  | div (rs : RegIdx) (rt : RegIdx)
  /-- DIVU, R603. -/
  | divu (rs : RegIdx) (rt : RegIdx)
  /-- MFHI, R604. -/
  | mfhi (rd : RegIdx)
  /-- MFLO, R605. -/
  | mflo (rd : RegIdx)
  /-- MTHI, R606. -/
  | mthi (rs : RegIdx)
  /-- MTLO, R607. -/
  | mtlo (rs : RegIdx)
  -- Logic, LUI and shifts (43_logic_shift.md)
  /-- AND, R700. -/
  | and (rd : RegIdx) (rs : RegIdx) (rt : RegIdx)
  /-- OR, R701. -/
  | or (rd : RegIdx) (rs : RegIdx) (rt : RegIdx)
  /-- XOR, R702. -/
  | xor (rd : RegIdx) (rs : RegIdx) (rt : RegIdx)
  /-- NOR, R703. -/
  | nor (rd : RegIdx) (rs : RegIdx) (rt : RegIdx)
  /-- ANDI, R704. -/
  | andi (rt : RegIdx) (rs : RegIdx) (imm : BitVec 16)
  /-- ORI, R705. -/
  | ori (rt : RegIdx) (rs : RegIdx) (imm : BitVec 16)
  /-- XORI, R706. -/
  | xori (rt : RegIdx) (rs : RegIdx) (imm : BitVec 16)
  /-- LUI, R707. -/
  | lui (rt : RegIdx) (imm : BitVec 16)
  /-- SLL, R708. -/
  | sll (rd : RegIdx) (rt : RegIdx) (sa : Nat)
  /-- SRL, R709. -/
  | srl (rd : RegIdx) (rt : RegIdx) (sa : Nat)
  /-- SRA, R712. -/
  | sra (rd : RegIdx) (rt : RegIdx) (sa : Nat)
  /-- SLLV, R713. -/
  | sllv (rd : RegIdx) (rt : RegIdx) (rs : RegIdx)
  /-- SRLV, R714. -/
  | srlv (rd : RegIdx) (rt : RegIdx) (rs : RegIdx)
  /-- SRAV, R715. -/
  | srav (rd : RegIdx) (rt : RegIdx) (rs : RegIdx)
  -- Loads (44_load.md)
  /-- LB, R810. -/
  | lb (rt : RegIdx) (rs : RegIdx) (imm : BitVec 16)
  /-- LBU, R811. -/
  | lbu (rt : RegIdx) (rs : RegIdx) (imm : BitVec 16)
  /-- LH, R812. -/
  | lh (rt : RegIdx) (rs : RegIdx) (imm : BitVec 16)
  /-- LHU, R813. -/
  | lhu (rt : RegIdx) (rs : RegIdx) (imm : BitVec 16)
  /-- LW, R814. -/
  | lw (rt : RegIdx) (rs : RegIdx) (imm : BitVec 16)
  /-- LWL, R815. -/
  | lwl (rt : RegIdx) (rs : RegIdx) (imm : BitVec 16)
  /-- LWR, R816. -/
  | lwr (rt : RegIdx) (rs : RegIdx) (imm : BitVec 16)
  -- Stores (45_store.md)
  /-- SB, R910. -/
  | sb (rt : RegIdx) (rs : RegIdx) (imm : BitVec 16)
  /-- SH, R911. -/
  | sh (rt : RegIdx) (rs : RegIdx) (imm : BitVec 16)
  /-- SW, R912. -/
  | sw (rt : RegIdx) (rs : RegIdx) (imm : BitVec 16)
  /-- SWL, R904. -/
  | swl (rt : RegIdx) (rs : RegIdx) (imm : BitVec 16)
  /-- SWR, R905. -/
  | swr (rt : RegIdx) (rs : RegIdx) (imm : BitVec 16)
  -- Branches and jumps (46_branch.md)
  /-- BEQ, R1010. -/
  | beq (rs : RegIdx) (rt : RegIdx) (imm : BitVec 16)
  /-- BNE, R1011. -/
  | bne (rs : RegIdx) (rt : RegIdx) (imm : BitVec 16)
  /-- BLEZ, R1012. -/
  | blez (rs : RegIdx) (imm : BitVec 16)
  /-- BGTZ, R1013. -/
  | bgtz (rs : RegIdx) (imm : BitVec 16)
  /-- BLTZ, R1014. -/
  | bltz (rs : RegIdx) (imm : BitVec 16)
  /-- BGEZ, R1015. -/
  | bgez (rs : RegIdx) (imm : BitVec 16)
  /-- BLTZAL, R1016. -/
  | bltzal (rs : RegIdx) (imm : BitVec 16)
  /-- BGEZAL, R1017. -/
  | bgezal (rs : RegIdx) (imm : BitVec 16)
  /-- J, R1018. -/
  | j (target : BitVec 26)
  /-- JAL, R1019. -/
  | jal (target : BitVec 26)
  /-- JR, R1020. -/
  | jr (rs : RegIdx)
  /-- JALR, R1021. -/
  | jalr (rd : RegIdx) (rs : RegIdx)
  -- System instructions and COP0 moves (47_system.md)
  /-- SYSCALL, R1100. -/
  | syscall (code : BitVec 20)
  /-- BREAK, R1101. -/
  | brk (code : BitVec 20)
  /-- MFC0, R1110. -/
  | mfc0 (rt : RegIdx) (cr : RegIdx)
  /-- MTC0, R1111. -/
  | mtc0 (rt : RegIdx) (cr : RegIdx)
  /-- RFE, R1122. -/
  | rfe
  deriving DecidableEq, Repr

/-- Why a word is no instruction (30_encoding.md R320 to R323, R340, R342). -/
inductive Reject where
  /-- A primary opcode that R320 maps to nothing. -/
  | reservedOpcode (op : BitVec 6)
  /-- COP1, COP2, COP3, LWC0 to LWC3, SWC0 to SWC3 (R342). -/
  | coprocessor (op : BitVec 6)
  /-- A SPECIAL function number that R321 maps to nothing. -/
  | reservedSpecial (funct : BitVec 6)
  /-- A REGIMM selector that R322 maps to nothing. -/
  | reservedRegimm (rt : BitVec 5)
  /-- A COP0 move selector other than MFC0 and MTC0 (R323). -/
  | reservedCop0Move (rs : BitVec 5)
  /-- A COP0 operation other than RFE (R323). -/
  | reservedCop0Operation (funct : BitVec 6)
  /-- Fewer than four bytes: no word to decode (R300). -/
  | truncated
  deriving DecidableEq, Repr

end Sys2Proof
end

