-- ==== Sys2Proof/Machine/State.lean ====
section
/-!
DEFINITION. The machine's state (10_state.md R148), as plain data, the reasons a step stops, and the state after
reset (70_reset_and_hazards.md R1300).
-/

namespace Sys2Proof.Machine

/-- What the block puts out and never reads (10_state.md R146). -/
inductive Event where
  /-- A byte of the TTY stream (R402). -/
  | tty (b : Byte)
  /-- A GP0 command word (R235). -/
  | gp0 (v : Word)
  /-- A GP1 command word (R235). -/
  | gp1 (v : Word)
  /-- A read of `bytes` bytes at an unmapped masked address (00_scope.md R20, R219). -/
  | unmappedRead (m : Word) (bytes : Nat)
  /-- A store of `bytes` bytes at an unmapped masked address (R20, R224). -/
  | unmappedStore (m : Word) (bytes : Nat)
  deriving DecidableEq, Repr

/-- A slot of the delay-load FIFO (R120). -/
structure Slot where
  target   : RegIdx
  value    : Word
  modified : Bool
  pc       : Word
  deriving DecidableEq, Repr

/-- EMPTY: target 0, value 0, modified false, pc 0 (R120). -/
def Slot.empty : Slot := ⟨0, 0#32, false, 0#32⟩

/-- The complete machine state (R148). `directWritten` and `trapped` are the tick's transients (R145); `draws` is the
model's own counter of draws taken (assumption log entry 2). -/
structure State where
  regs          : Vector Word 32
  hi            : Word
  lo            : Word
  pc            : Word
  branch        : Bool
  branchDelay   : Bool
  branchAddress : Word
  slot0         : Slot
  slot1         : Slot
  cop0          : Vector Word 32
  mem           : Memory
  dma           : DmaRegs
  directWritten : Option RegIdx
  trapped       : Bool
  refused       : Bool
  outputs       : List Event
  draws         : Nat
  deriving DecidableEq, Repr

/-- No fault stops the block: an exception is a next state (60_exceptions.md R1201), and every address answers
(20_memory.md R219, R224). So there is no constructor, nothing raises one, and the type is safe. -/
inductive Fault where
  deriving DecidableEq, Repr

/-- The reasons the model gives no next state (10_state.md R147). Each is safe: nothing can be proved of a run past it. -/
inductive Refusal where
  /-- Raised by exec's arm of an instruction that has no meaning yet. Safe. -/
  | notModelled (mnemonic : String)
  /-- Raised by step for a fetched word that is no admitted instruction (30_encoding.md R340). Safe. -/
  | undecodable (reason : Reject)
  /-- Raised by a byte or halfword load or store in the DMA window (20_memory.md R233). Safe. -/
  | narrowDmaAccess
  /-- Raised by a byte or halfword load or store in the GPU window (R237). Safe. -/
  | narrowGpuAccess
  /-- Raised by step in a state that carries the refused mark: it has no tick (R147, 40_tick.md R400). Safe. -/
  | alreadyRefused
  deriving DecidableEq, Repr

/-- What executing an instruction, or a step, answers. -/
abbrev Result := Host.Outcome State Fault Refusal

/-- Reset with BIOS image `image` (R1300, R1302). -/
def State.resetWithBios (image : List Byte) : State where
  regs          := resetGprs
  hi            := resetWord
  lo            := resetWord
  pc            := resetPc
  branch        := false
  branchDelay   := false
  branchAddress := resetWord
  slot0         := Slot.empty
  slot1         := Slot.empty
  cop0          := resetCop0
  mem           := biosMemory image
  dma           := resetDma
  directWritten := none
  trapped       := false
  refused       := false
  outputs       := []
  draws         := 0

/-- The machine right after reset; the BIOS image is `resetBiosImage` (assumption log entry 5). -/
def State.reset : State := State.resetWithBios resetBiosImage

end Sys2Proof.Machine
end

