-- ==== Sys2Proof/Machine/Ops.lean ====
section
/-!
DEFINITION. The named operations on registers and control: direct write and delayed load (00_scope.md R13),
recording a branch (R15), the COP0 bank with its write masks (10_state.md R125 to R127), taking an exception
(60_exceptions.md R1210) and, beside it, the mode-stack pop of the return (47_system.md R1122).
-/

namespace Sys2Proof.Machine

/-! ### General registers (10_state.md R100, R101) -/

/-- `x[i]`: register 0 reads 0 at every point. -/
def State.reg (s : State) (i : RegIdx) : Word := if i = 0 then 0#32 else s.regs[i]

/-- The register file's store, with no other effect; a store to `x[0]` is discarded (R101). -/
def State.putReg (s : State) (i : RegIdx) (v : Word) : State :=
  if i = 0 then s else { s with regs := s.regs.set i v }

/-- The override rule (40_tick.md R410): a direct write to `d` cancels the commit of a load to `d` in slot1. -/
def Slot.override (sl : Slot) (d : RegIdx) : Slot :=
  if sl.target = d then { sl with modified := true } else sl

/-- A direct write `x[d] <- v` (R13, R410); it is discarded, and overrides nothing, when `d = 0`. -/
def State.writeReg (s : State) (d : RegIdx) (v : Word) : State :=
  if d = 0 then s
  else { s.putReg d v with directWritten := some d, slot1 := s.slot1.override d }

/-- `DelayLoad(i, v)` (R408): slot0 takes the load; a load to `x[0]` leaves slot0 empty. -/
def State.delayLoad (s : State) (i : RegIdx) (v : Word) : State :=
  { s with slot0 := if i = 0 then Slot.empty else ⟨i, v, false, s.pc⟩ }

/-- The value LWL and LWR merge into (44_load.md R807): a load to `rt` pending in slot1, else `x[rt]`. -/
def State.mergeInput (s : State) (rt : RegIdx) : Word :=
  if s.slot1.target = rt ∧ rt ≠ 0 then s.slot1.value else s.reg rt

/-! ### Branches (40_tick.md R411) -/

/-- `Branch(target)`: a pending branch is recorded. -/
def State.recordBranch (s : State) (target : Word) : State :=
  { s with branch := true, branchAddress := target }

/-- A conditional branch: recorded when the condition holds, nothing otherwise (46_branch.md R1000). -/
def State.branchIf (s : State) (taken : Bool) (target : Word) : State :=
  if taken then s.recordBranch target else s

/-! ### COP0 (10_state.md R125 to R132) -/

/-- BADVADDR. -/
def badVaddrIdx : RegIdx := 8

/-- SR. -/
def srIdx : RegIdx := 12

/-- CAUSE. -/
def causeIdx : RegIdx := 13

/-- EPC. -/
def epcIdx : RegIdx := 14

/-- PRID. -/
def pridIdx : RegIdx := 15

/-- `cop0[i]` (R127). -/
def State.cop0At (s : State) (i : RegIdx) : Word := s.cop0[i]

/-- A hardware write of a COP0 register, not masked (R126). -/
def State.setCop0 (s : State) (i : RegIdx) (v : Word) : State := { s with cop0 := s.cop0.set i v }

/-- `writemask[i]` (R125): BPC 3, BDA 5, DCIC 7, BDAM 9, BPCM 11 and SR 12 are fully writable, CAUSE 13 in bits 9:8,
every other register not at all. -/
def writeMask (i : RegIdx) : Word :=
  match i with
  | 3 | 5 | 7 | 9 | 11 | 12 => 0xFFFFFFFF#32
  | 13 => 0x00000300#32
  | _ => 0x00000000#32

/-- `Cop0Write(i, v)` (R126). -/
def State.writeCop0 (s : State) (i : RegIdx) (v : Word) : State :=
  s.setCop0 i ((s.cop0At i &&& ~~~ (writeMask i)) ||| (v &&& writeMask i))

/-! ### Taking an exception (60_exceptions.md R1200 to R1216) -/

/-- The five exceptions (R1200); an address error carries the offending virtual address (R1215). -/
inductive Exc where
  /-- AdEL, address error on a load or a fetch. -/
  | adel (bad : Word)
  /-- AdES, address error on a store. -/
  | ades (bad : Word)
  /-- Syscall. -/
  | syscall
  /-- Breakpoint. -/
  | breakpoint
  /-- Overflow. -/
  | overflow
  deriving DecidableEq, Repr

/-- The ExcCode (R1200). -/
def Exc.code : Exc → Word
  | .adel _ => 4#32
  | .ades _ => 5#32
  | .syscall => 8#32
  | .breakpoint => 9#32
  | .overflow => 12#32

/-- The address an address error records; the others record none (R1215). -/
def Exc.badAddress : Exc → Option Word
  | .adel bad => some bad
  | .ades bad => some bad
  | .syscall | .breakpoint | .overflow => none

/-- CAUSE after entry (R1212): bits 6:2 the code, bit 31 whether in a delay slot, every other bit kept. -/
def causeOnEntry (cause code : Word) (inDelaySlot : Bool) : Word :=
  let c := (cause &&& ~~~ 0x0000007C#32) ||| (code <<< 2)
  if inDelaySlot then c ||| 0x80000000#32 else c &&& 0x7FFFFFFF#32

/-- EPC after entry (R1211): the excepting instruction, or the branch before it when in a delay slot. -/
def epcOnEntry (pc : Word) (inDelaySlot : Bool) : Word := if inDelaySlot then pc - 4#32 else pc

/-- SR's mode stack pushed (R1214). -/
def srPush (sr : Word) : Word := (sr &&& ~~~ 0x0000003F#32) ||| ((sr <<< 2) &&& 0x0000003F#32)

/-- SR's mode stack popped (R1122). -/
def srPop (sr : Word) : Word := (sr &&& ~~~ 0x0000000F#32) ||| ((sr >>> 2) &&& 0x0000000F#32)

/-- The exception vector, selected by SR bit 22, BEV (R1213). -/
def vectorOf (sr : Word) : Word := if sr.getLsbD 22 then 0xBFC00180#32 else 0x80000080#32

/-- `Enter(code, bad)` (R1210), in its order: BADVADDR, CAUSE, EPC, SR, pc (the vector less 4, since the tick adds 4),
branch, trapped. -/
def State.enterException (s : State) (e : Exc) : State :=
  let s1 := match e.badAddress with
    | some bad => s.setCop0 badVaddrIdx bad
    | none => s
  let s2 := s1.setCop0 causeIdx (causeOnEntry (s1.cop0At causeIdx) e.code s.branchDelay)
  let s3 := s2.setCop0 epcIdx (epcOnEntry s.pc s.branchDelay)
  let sr := s3.cop0At srIdx
  let s4 := s3.setCop0 srIdx (srPush sr)
  { s4 with pc := vectorOf sr - 4#32, branch := false, trapped := true }

/-- The return from an exception (R1122, R1218): SR's mode stack is popped; `pc` is not changed. -/
def State.popModeStack (s : State) : State := s.setCop0 srIdx (srPop (s.cop0At srIdx))

/-! ### Outputs and draws -/

/-- An event added to the output streams (10_state.md R146). -/
def State.emit (s : State) (e : Event) : State := { s with outputs := s.outputs ++ [e] }

/-- A draw is taken: the next one is another (00_scope.md R9). -/
def State.nextDraw (s : State) : State := { s with draws := s.draws + 1 }

end Sys2Proof.Machine
end

