-- ==== Sys2Proof/Machine/Operands.lean ====
section
/-!
DEFINITION. The operand forms (30_encoding.md R310): extension of immediates, effective addresses, branch and jump
targets, link values, shift counts; and the partial-word merges (44_load.md R807, 45_store.md R903).
-/

namespace Sys2Proof.Machine

/-! ### Extension (00_scope.md R12) -/

/-- `sext_16(imm)`. -/
def sext16 (imm : BitVec 16) : Word := imm.signExtend 32

/-- `zext_16(imm)`. -/
def zext16 (imm : BitVec 16) : Word := imm.setWidth 32

/-- `sext_8` of a word's low byte (44_load.md R802). -/
def sextLow8 (v : Word) : Word := (v.extractLsb' 0 8).signExtend 32

/-- `sext_16` of a word's low halfword (R802). -/
def sextLow16 (v : Word) : Word := (v.extractLsb' 0 16).signExtend 32

/-! ### Addresses and targets -/

/-- `ea = x[rs] + sext_16(imm)` (R310). -/
def State.ea (s : State) (rs : RegIdx) (imm : BitVec 16) : Word := s.reg rs + sext16 imm

/-- `ea & ~3`, the aligned word that holds byte `ea`. -/
def wordBase (ea : Word) : Word := ea &&& 0xFFFFFFFC#32

/-- `k = ea[1:0]`. -/
def byteLane (ea : Word) : BitVec 2 := ea.extractLsb' 0 2

/-- A PC-relative target: `(sext_16(imm) << 2) + (pc + 4)` (46_branch.md R1001). -/
def branchTarget (pc : Word) (imm : BitVec 16) : Word := (sext16 imm <<< 2) + (pc + 4#32)

/-- A region jump's target: `((pc + 4) & 0xF0000000) | (target << 2)` (R1001). -/
def jumpTarget (pc : Word) (target : BitVec 26) : Word :=
  ((pc + 4#32) &&& 0xF0000000#32) ||| (target.setWidth 32 <<< 2)

/-- The return address `pc + 8` (R1002). -/
def linkAddress (pc : Word) : Word := pc + 8#32

/-- The register JAL, BLTZAL and BGEZAL link in: `x[31]` (R1002). -/
def linkReg : RegIdx := 31

/-- A variable shift's count: `x[rs] & 0x1F` (43_logic_shift.md R710). -/
def shiftCount (v : Word) : Nat := (v &&& 0x0000001F#32).toNat

/-! ### Partial-word merges -/

/-- LWL's row `k` (R807). -/
def lwlMerge (k : BitVec 2) (cur w : Word) : Word :=
  match k with
  | 0#2 => (cur &&& 0x00FFFFFF#32) ||| (w <<< 24)
  | 1#2 => (cur &&& 0x0000FFFF#32) ||| (w <<< 16)
  | 2#2 => (cur &&& 0x000000FF#32) ||| (w <<< 8)
  | _ => w

/-- LWR's row `k` (R807). -/
def lwrMerge (k : BitVec 2) (cur w : Word) : Word :=
  match k with
  | 0#2 => w
  | 1#2 => (cur &&& 0xFF000000#32) ||| (w >>> 8)
  | 2#2 => (cur &&& 0xFFFF0000#32) ||| (w >>> 16)
  | _ => (cur &&& 0xFFFFFF00#32) ||| (w >>> 24)

/-- SWL's row `k` (R903). -/
def swlMerge (k : BitVec 2) (mem v : Word) : Word :=
  match k with
  | 0#2 => (mem &&& 0xFFFFFF00#32) ||| (v >>> 24)
  | 1#2 => (mem &&& 0xFFFF0000#32) ||| (v >>> 16)
  | 2#2 => (mem &&& 0xFF000000#32) ||| (v >>> 8)
  | _ => v

/-- SWR's row `k` (R903). -/
def swrMerge (k : BitVec 2) (mem v : Word) : Word :=
  match k with
  | 0#2 => v
  | 1#2 => (mem &&& 0x000000FF#32) ||| (v <<< 8)
  | 2#2 => (mem &&& 0x0000FFFF#32) ||| (v <<< 16)
  | _ => (mem &&& 0x00FFFFFF#32) ||| (v <<< 24)

end Sys2Proof.Machine
end

