-- ==== Sys2Proof/Machine/Arith.lean ====
section
/-!
DEFINITION. Integer add, subtract and compare (41_arith.md). Every write is a direct write (R510, R511).
-/

namespace Sys2Proof.Machine

/-- ADD (R500): `a + b`, or Overflow with the destination unmodified. -/
def execAdd (rd rs rt : RegIdx) (s : State) : Result :=
  let a := s.reg rs
  let b := s.reg rt
  if addOverflows a b then .next (s.enterException .overflow) else .next (s.writeReg rd (a + b))

/-- ADDU (R501): the wrapped sum, never a trap. -/
def execAddu (rd rs rt : RegIdx) (s : State) : Result :=
  .next (s.writeReg rd (s.reg rs + s.reg rt))

/-- SUB (R502): `a - b`, or Overflow with the destination unmodified. -/
def execSub (rd rs rt : RegIdx) (s : State) : Result :=
  let a := s.reg rs
  let b := s.reg rt
  if subOverflows a b then .next (s.enterException .overflow) else .next (s.writeReg rd (a - b))

/-- SUBU (R503): the wrapped difference, never a trap. -/
def execSubu (rd rs rt : RegIdx) (s : State) : Result :=
  .next (s.writeReg rd (s.reg rs - s.reg rt))

/-- SLT (R504): 1 when less, signed, else 0. -/
def execSlt (rd rs rt : RegIdx) (s : State) : Result :=
  .next (s.writeReg rd (wordOfBool (lessSigned (s.reg rs) (s.reg rt))))

/-- SLTU (R505): 1 when less, unsigned, else 0. -/
def execSltu (rd rs rt : RegIdx) (s : State) : Result :=
  .next (s.writeReg rd (wordOfBool (lessUnsigned (s.reg rs) (s.reg rt))))

/-- ADDI (R506): add of the sign-extended immediate, or Overflow. -/
def execAddi (rt rs : RegIdx) (imm : BitVec 16) (s : State) : Result :=
  let a := s.reg rs
  let b := sext16 imm
  if addOverflows a b then .next (s.enterException .overflow) else .next (s.writeReg rt (a + b))

/-- ADDIU (R507): the wrapped sum with the sign-extended immediate. -/
def execAddiu (rt rs : RegIdx) (imm : BitVec 16) (s : State) : Result :=
  .next (s.writeReg rt (s.reg rs + sext16 imm))

/-- SLTI (R508): signed comparison with the sign-extended immediate. -/
def execSlti (rt rs : RegIdx) (imm : BitVec 16) (s : State) : Result :=
  .next (s.writeReg rt (wordOfBool (lessSigned (s.reg rs) (sext16 imm))))

/-- SLTIU (R509): unsigned comparison with the sign-extended immediate. -/
def execSltiu (rt rs : RegIdx) (imm : BitVec 16) (s : State) : Result :=
  .next (s.writeReg rt (wordOfBool (lessUnsigned (s.reg rs) (sext16 imm))))

end Sys2Proof.Machine
end

