-- ==== Sys2Proof/Machine/Branch.lean ====
section
/-!
DEFINITION. Branches and jumps (46_branch.md). None writes `pc`: the tick applies the recorded target (R1000).
-/

namespace Sys2Proof.Machine

/-- BEQ (R1010): branch when equal. -/
def execBeq (rs rt : RegIdx) (imm : BitVec 16) (s : State) : Result :=
  .next (s.branchIf (s.reg rs == s.reg rt) (branchTarget s.pc imm))

/-- BNE (R1011): branch when not equal. -/
def execBne (rs rt : RegIdx) (imm : BitVec 16) (s : State) : Result :=
  .next (s.branchIf (s.reg rs != s.reg rt) (branchTarget s.pc imm))

/-- BLEZ (R1012): branch when at most zero, signed. -/
def execBlez (rs : RegIdx) (imm : BitVec 16) (s : State) : Result :=
  .next (s.branchIf (decide ((s.reg rs).toInt ≤ 0)) (branchTarget s.pc imm))

/-- BGTZ (R1013): branch when above zero, signed. -/
def execBgtz (rs : RegIdx) (imm : BitVec 16) (s : State) : Result :=
  .next (s.branchIf (decide ((s.reg rs).toInt > 0)) (branchTarget s.pc imm))

/-- BLTZ (R1014): branch when below zero, signed. -/
def execBltz (rs : RegIdx) (imm : BitVec 16) (s : State) : Result :=
  .next (s.branchIf (decide ((s.reg rs).toInt < 0)) (branchTarget s.pc imm))

/-- BGEZ (R1015): branch when at least zero, signed. -/
def execBgez (rs : RegIdx) (imm : BitVec 16) (s : State) : Result :=
  .next (s.branchIf (decide ((s.reg rs).toInt ≥ 0)) (branchTarget s.pc imm))

/-- BLTZAL (R1016): link always; branch when below zero, tested before the link write. -/
def execBltzal (rs : RegIdx) (imm : BitVec 16) (s : State) : Result :=
  let taken := decide ((s.reg rs).toInt < 0)
  .next ((s.writeReg linkReg (linkAddress s.pc)).branchIf taken (branchTarget s.pc imm))

/-- BGEZAL (R1017): link always; branch when at least zero, tested before the link write. -/
def execBgezal (rs : RegIdx) (imm : BitVec 16) (s : State) : Result :=
  let taken := decide ((s.reg rs).toInt ≥ 0)
  .next ((s.writeReg linkReg (linkAddress s.pc)).branchIf taken (branchTarget s.pc imm))

/-- J (R1018): region jump. -/
def execJ (target : BitVec 26) (s : State) : Result :=
  .next (s.recordBranch (jumpTarget s.pc target))

/-- JAL (R1019): region jump and link in `x[31]`. -/
def execJal (target : BitVec 26) (s : State) : Result :=
  .next ((s.recordBranch (jumpTarget s.pc target)).writeReg linkReg (linkAddress s.pc))

/-- JR (R1020): jump to `x[rs]`, unchecked. -/
def execJr (rs : RegIdx) (s : State) : Result :=
  .next (s.recordBranch (s.reg rs))

/-- JALR (R1021): link in `x[rd]`, jump to `x[rs]` as read before the link write. -/
def execJalr (rd rs : RegIdx) (s : State) : Result :=
  let t := s.reg rs
  .next ((s.writeReg rd (linkAddress s.pc)).recordBranch t)

end Sys2Proof.Machine
end

