-- ==== Sys2Proof/WellFormed.lean ====
section
/-!
DEFINITION. Which instructions an encoding exists for. Register numbers, immediates, jump targets and codes have
the width of their field by their type (30_encoding.md R301), so one check is left: a shift amount is 0 to 31
(43_logic_shift.md R710), the values of the 5-bit field sa.
-/

namespace Sys2Proof

/-- The operands fit their fields (R301, R710). -/
def WellFormed : Instr → Bool
  | .sll _ _ sa => decide (sa < 32)
  | .srl _ _ sa => decide (sa < 32)
  | .sra _ _ sa => decide (sa < 32)
  | .add _ _ _ | .addu _ _ _ | .sub _ _ _ | .subu _ _ _ | .slt _ _ _ | .sltu _ _ _
  | .addi _ _ _ | .addiu _ _ _ | .slti _ _ _ | .sltiu _ _ _
  | .mult _ _ | .multu _ _ | .div _ _ | .divu _ _ | .mfhi _ | .mflo _ | .mthi _ | .mtlo _
  | .and _ _ _ | .or _ _ _ | .xor _ _ _ | .nor _ _ _ | .andi _ _ _ | .ori _ _ _ | .xori _ _ _ | .lui _ _
  | .sllv _ _ _ | .srlv _ _ _ | .srav _ _ _
  | .lb _ _ _ | .lbu _ _ _ | .lh _ _ _ | .lhu _ _ _ | .lw _ _ _ | .lwl _ _ _ | .lwr _ _ _
  | .sb _ _ _ | .sh _ _ _ | .sw _ _ _ | .swl _ _ _ | .swr _ _ _
  | .beq _ _ _ | .bne _ _ _ | .blez _ _ | .bgtz _ _ | .bltz _ _ | .bgez _ _ | .bltzal _ _ | .bgezal _ _
  | .j _ | .jal _ | .jr _ | .jalr _ _
  | .syscall _ | .brk _ | .mfc0 _ _ | .mtc0 _ _ | .rfe => true

end Sys2Proof
end

