-- ==== Sys2Proof/Decode.lean ====
section
/-!
DEFINITION. Decoding (30_encoding.md R300 to R323, R340) and, after it, encoding from the same tables. Decoding is a
pure function of the word (R303); the machine sees only the constructor it gives. Fields an instruction does not use
are ignored when decoding (R311) and zero when encoding.
-/

namespace Sys2Proof

/-! ### Fields of a word (R301) -/

/-- `op = w[31:26]`. -/
def opOf (w : Word) : BitVec 6 := w.extractLsb' 26 6

/-- `w[25:21]`. -/
def rsBits (w : Word) : BitVec 5 := w.extractLsb' 21 5

/-- `w[20:16]`. -/
def rtBits (w : Word) : BitVec 5 := w.extractLsb' 16 5

/-- `w[15:11]`. -/
def rdBits (w : Word) : BitVec 5 := w.extractLsb' 11 5

/-- `w[10:6]`. -/
def saBits (w : Word) : BitVec 5 := w.extractLsb' 6 5

/-- `funct = w[5:0]`. -/
def functOf (w : Word) : BitVec 6 := w.extractLsb' 0 6

/-- `imm = w[15:0]`. -/
def immOf (w : Word) : BitVec 16 := w.extractLsb' 0 16

/-- `target = w[25:0]`. -/
def targetOf (w : Word) : BitVec 26 := w.extractLsb' 0 26

/-- `code = w[25:6]`. -/
def codeOf (w : Word) : BitVec 20 := w.extractLsb' 6 20

/-- A 5-bit field read as a register number. -/
def regOfBits (b : BitVec 5) : RegIdx := b.toFin

/-- The register numbered by `w[25:21]`. -/
def rsOf (w : Word) : RegIdx := regOfBits (rsBits w)

/-- The register numbered by `w[20:16]`. -/
def rtOf (w : Word) : RegIdx := regOfBits (rtBits w)

/-- The register numbered by `w[15:11]`. -/
def rdOf (w : Word) : RegIdx := regOfBits (rdBits w)

/-- The shift amount `w[10:6]`. -/
def saOf (w : Word) : Nat := (saBits w).toNat

/-! ### Decoding -/

/-- The SPECIAL map, `op = 0` (R321). -/
def decodeSpecial (w : Word) : Except Reject Instr :=
  match functOf w with
  | 0x00#6 => .ok (.sll (rdOf w) (rtOf w) (saOf w))
  | 0x02#6 => .ok (.srl (rdOf w) (rtOf w) (saOf w))
  | 0x03#6 => .ok (.sra (rdOf w) (rtOf w) (saOf w))
  | 0x04#6 => .ok (.sllv (rdOf w) (rtOf w) (rsOf w))
  | 0x06#6 => .ok (.srlv (rdOf w) (rtOf w) (rsOf w))
  | 0x07#6 => .ok (.srav (rdOf w) (rtOf w) (rsOf w))
  | 0x08#6 => .ok (.jr (rsOf w))
  | 0x09#6 => .ok (.jalr (rdOf w) (rsOf w))
  | 0x0C#6 => .ok (.syscall (codeOf w))
  | 0x0D#6 => .ok (.brk (codeOf w))
  | 0x10#6 => .ok (.mfhi (rdOf w))
  | 0x11#6 => .ok (.mthi (rsOf w))
  | 0x12#6 => .ok (.mflo (rdOf w))
  | 0x13#6 => .ok (.mtlo (rsOf w))
  | 0x18#6 => .ok (.mult (rsOf w) (rtOf w))
  | 0x19#6 => .ok (.multu (rsOf w) (rtOf w))
  | 0x1A#6 => .ok (.div (rsOf w) (rtOf w))
  | 0x1B#6 => .ok (.divu (rsOf w) (rtOf w))
  | 0x20#6 => .ok (.add (rdOf w) (rsOf w) (rtOf w))
  | 0x21#6 => .ok (.addu (rdOf w) (rsOf w) (rtOf w))
  | 0x22#6 => .ok (.sub (rdOf w) (rsOf w) (rtOf w))
  | 0x23#6 => .ok (.subu (rdOf w) (rsOf w) (rtOf w))
  | 0x24#6 => .ok (.and (rdOf w) (rsOf w) (rtOf w))
  | 0x25#6 => .ok (.or (rdOf w) (rsOf w) (rtOf w))
  | 0x26#6 => .ok (.xor (rdOf w) (rsOf w) (rtOf w))
  | 0x27#6 => .ok (.nor (rdOf w) (rsOf w) (rtOf w))
  | 0x2A#6 => .ok (.slt (rdOf w) (rsOf w) (rtOf w))
  | 0x2B#6 => .ok (.sltu (rdOf w) (rsOf w) (rtOf w))
  | funct => .error (.reservedSpecial funct)

/-- The REGIMM map, `op = 1` (R322). -/
def decodeRegimm (w : Word) : Except Reject Instr :=
  match rtBits w with
  | 0x00#5 => .ok (.bltz (rsOf w) (immOf w))
  | 0x01#5 => .ok (.bgez (rsOf w) (immOf w))
  | 0x10#5 => .ok (.bltzal (rsOf w) (immOf w))
  | 0x11#5 => .ok (.bgezal (rsOf w) (immOf w))
  | rt => .error (.reservedRegimm rt)

/-- The COP0 map, `op = 0x10` (R323): with bit 25 set only RFE, with bit 25 clear only MFC0 and MTC0. -/
def decodeCop0 (w : Word) : Except Reject Instr :=
  if w.getLsbD 25 then
    match functOf w with
    | 0x10#6 => .ok .rfe
    | funct => .error (.reservedCop0Operation funct)
  else
    match rsBits w with
    | 0x00#5 => .ok (.mfc0 (rtOf w) (rdOf w))
    | 0x04#5 => .ok (.mtc0 (rtOf w) (rdOf w))
    | rs => .error (.reservedCop0Move rs)

/-- COP1, COP2, COP3 (0x11 to 0x13), LWC0 to LWC3 (0x30 to 0x33), SWC0 to SWC3 (0x38 to 0x3B): R342. -/
def isCoprocessorOp (op : BitVec 6) : Bool :=
  op == 0x11#6 || op == 0x12#6 || op == 0x13#6 ||
  op == 0x30#6 || op == 0x31#6 || op == 0x32#6 || op == 0x33#6 ||
  op == 0x38#6 || op == 0x39#6 || op == 0x3A#6 || op == 0x3B#6

/-- The primary map (R320). Every word it does not map is rejected by name (R340). -/
def decode (w : Word) : Except Reject Instr :=
  match opOf w with
  | 0x00#6 => decodeSpecial w
  | 0x01#6 => decodeRegimm w
  | 0x02#6 => .ok (.j (targetOf w))
  | 0x03#6 => .ok (.jal (targetOf w))
  | 0x04#6 => .ok (.beq (rsOf w) (rtOf w) (immOf w))
  | 0x05#6 => .ok (.bne (rsOf w) (rtOf w) (immOf w))
  | 0x06#6 => .ok (.blez (rsOf w) (immOf w))
  | 0x07#6 => .ok (.bgtz (rsOf w) (immOf w))
  | 0x08#6 => .ok (.addi (rtOf w) (rsOf w) (immOf w))
  | 0x09#6 => .ok (.addiu (rtOf w) (rsOf w) (immOf w))
  | 0x0A#6 => .ok (.slti (rtOf w) (rsOf w) (immOf w))
  | 0x0B#6 => .ok (.sltiu (rtOf w) (rsOf w) (immOf w))
  | 0x0C#6 => .ok (.andi (rtOf w) (rsOf w) (immOf w))
  | 0x0D#6 => .ok (.ori (rtOf w) (rsOf w) (immOf w))
  | 0x0E#6 => .ok (.xori (rtOf w) (rsOf w) (immOf w))
  | 0x0F#6 => .ok (.lui (rtOf w) (immOf w))
  | 0x10#6 => decodeCop0 w
  | 0x20#6 => .ok (.lb (rtOf w) (rsOf w) (immOf w))
  | 0x21#6 => .ok (.lh (rtOf w) (rsOf w) (immOf w))
  | 0x22#6 => .ok (.lwl (rtOf w) (rsOf w) (immOf w))
  | 0x23#6 => .ok (.lw (rtOf w) (rsOf w) (immOf w))
  | 0x24#6 => .ok (.lbu (rtOf w) (rsOf w) (immOf w))
  | 0x25#6 => .ok (.lhu (rtOf w) (rsOf w) (immOf w))
  | 0x26#6 => .ok (.lwr (rtOf w) (rsOf w) (immOf w))
  | 0x28#6 => .ok (.sb (rtOf w) (rsOf w) (immOf w))
  | 0x29#6 => .ok (.sh (rtOf w) (rsOf w) (immOf w))
  | 0x2A#6 => .ok (.swl (rtOf w) (rsOf w) (immOf w))
  | 0x2B#6 => .ok (.sw (rtOf w) (rsOf w) (immOf w))
  | 0x2E#6 => .ok (.swr (rtOf w) (rsOf w) (immOf w))
  | op => .error (if isCoprocessorOp op then .coprocessor op else .reservedOpcode op)

/-- A word from its four bytes, the lowest address first: little-endian (R202, R300). -/
def wordOfBytes (b0 b1 b2 b3 : Byte) : Word := b3 ++ b2 ++ b1 ++ b0

/-- Byte `k` of a word, `v[8k+7:8k]` (R202). -/
def byteOfWord (v : Word) (k : Nat) : Byte := v.extractLsb' (8 * k) 8

/-- Decoding of a byte stream: one instruction and the bytes after it. -/
def decodeBytes : List Byte → Except Reject (Instr × List Byte)
  | b0 :: b1 :: b2 :: b3 :: rest =>
    match decode (wordOfBytes b0 b1 b2 b3) with
    | .ok i => .ok (i, rest)
    | .error r => .error r
  | _ => .error .truncated

/-- The instruction's word from an opcode-table number: its low `nbits` bits, every bit above them zero. -/
def tableWord (nbits w : Nat) : Word := BitVec.ofNat 32 (w % 2 ^ nbits)

/-- What the decoder reads from an opcode-table word: the word is laid out as the hardware stores it, four bytes in
little-endian order, and given to decodeBytes. -/
def decodeTableWord (nbits w : Nat) : Option Instr :=
  let v := tableWord nbits w
  match decodeBytes [byteOfWord v 0, byteOfWord v 1, byteOfWord v 2, byteOfWord v 3] with
  | .ok (i, _) => some i
  | .error _ => none

/-! ### Encoding, from the formats of R302 and the maps of R320 to R323 -/

/-- A register number as a 5-bit field. -/
def bitsOfReg (r : RegIdx) : BitVec 5 := BitVec.ofFin r

/-- R-type: `000000 | rs | rt | rd | sa | funct`. -/
def encodeSpecial (rs rt rd : RegIdx) (sa : Nat) (funct : BitVec 6) : Word :=
  0#6 ++ bitsOfReg rs ++ bitsOfReg rt ++ bitsOfReg rd ++ BitVec.ofNat 5 sa ++ funct

/-- SYSCALL and BREAK: `000000 | code | funct`. -/
def encodeCode (code : BitVec 20) (funct : BitVec 6) : Word := 0#6 ++ code ++ funct

/-- I-type: `op | rs | rt | imm`. -/
def encodeImm (op : BitVec 6) (rs rt : RegIdx) (imm : BitVec 16) : Word :=
  op ++ bitsOfReg rs ++ bitsOfReg rt ++ imm

/-- J-type: `op | target`. -/
def encodeJump (op : BitVec 6) (target : BitVec 26) : Word := op ++ target

/-- REGIMM: `000001 | rs | selector | imm`. -/
def encodeRegimm (rs : RegIdx) (sel : BitVec 5) (imm : BitVec 16) : Word :=
  0x01#6 ++ bitsOfReg rs ++ sel ++ imm

/-- COP0 move: `010000 | selector | rt | rd | 0`. -/
def encodeCop0Move (sel : BitVec 5) (rt cr : RegIdx) : Word :=
  0x10#6 ++ sel ++ bitsOfReg rt ++ bitsOfReg cr ++ 0#11

/-- The word of an instruction, the fields it does not use zero. -/
def encode : Instr → Word
  | .add rd rs rt => encodeSpecial rs rt rd 0 0x20#6
  | .addu rd rs rt => encodeSpecial rs rt rd 0 0x21#6
  | .sub rd rs rt => encodeSpecial rs rt rd 0 0x22#6
  | .subu rd rs rt => encodeSpecial rs rt rd 0 0x23#6
  | .slt rd rs rt => encodeSpecial rs rt rd 0 0x2A#6
  | .sltu rd rs rt => encodeSpecial rs rt rd 0 0x2B#6
  | .addi rt rs imm => encodeImm 0x08#6 rs rt imm
  | .addiu rt rs imm => encodeImm 0x09#6 rs rt imm
  | .slti rt rs imm => encodeImm 0x0A#6 rs rt imm
  | .sltiu rt rs imm => encodeImm 0x0B#6 rs rt imm
  | .mult rs rt => encodeSpecial rs rt 0 0 0x18#6
  | .multu rs rt => encodeSpecial rs rt 0 0 0x19#6
  | .div rs rt => encodeSpecial rs rt 0 0 0x1A#6
  | .divu rs rt => encodeSpecial rs rt 0 0 0x1B#6
  | .mfhi rd => encodeSpecial 0 0 rd 0 0x10#6
  | .mflo rd => encodeSpecial 0 0 rd 0 0x12#6
  | .mthi rs => encodeSpecial rs 0 0 0 0x11#6
  | .mtlo rs => encodeSpecial rs 0 0 0 0x13#6
  | .and rd rs rt => encodeSpecial rs rt rd 0 0x24#6
  | .or rd rs rt => encodeSpecial rs rt rd 0 0x25#6
  | .xor rd rs rt => encodeSpecial rs rt rd 0 0x26#6
  | .nor rd rs rt => encodeSpecial rs rt rd 0 0x27#6
  | .andi rt rs imm => encodeImm 0x0C#6 rs rt imm
  | .ori rt rs imm => encodeImm 0x0D#6 rs rt imm
  | .xori rt rs imm => encodeImm 0x0E#6 rs rt imm
  | .lui rt imm => encodeImm 0x0F#6 0 rt imm
  | .sll rd rt sa => encodeSpecial 0 rt rd sa 0x00#6
  | .srl rd rt sa => encodeSpecial 0 rt rd sa 0x02#6
  | .sra rd rt sa => encodeSpecial 0 rt rd sa 0x03#6
  | .sllv rd rt rs => encodeSpecial rs rt rd 0 0x04#6
  | .srlv rd rt rs => encodeSpecial rs rt rd 0 0x06#6
  | .srav rd rt rs => encodeSpecial rs rt rd 0 0x07#6
  | .lb rt rs imm => encodeImm 0x20#6 rs rt imm
  | .lbu rt rs imm => encodeImm 0x24#6 rs rt imm
  | .lh rt rs imm => encodeImm 0x21#6 rs rt imm
  | .lhu rt rs imm => encodeImm 0x25#6 rs rt imm
  | .lw rt rs imm => encodeImm 0x23#6 rs rt imm
  | .lwl rt rs imm => encodeImm 0x22#6 rs rt imm
  | .lwr rt rs imm => encodeImm 0x26#6 rs rt imm
  | .sb rt rs imm => encodeImm 0x28#6 rs rt imm
  | .sh rt rs imm => encodeImm 0x29#6 rs rt imm
  | .sw rt rs imm => encodeImm 0x2B#6 rs rt imm
  | .swl rt rs imm => encodeImm 0x2A#6 rs rt imm
  | .swr rt rs imm => encodeImm 0x2E#6 rs rt imm
  | .beq rs rt imm => encodeImm 0x04#6 rs rt imm
  | .bne rs rt imm => encodeImm 0x05#6 rs rt imm
  | .blez rs imm => encodeImm 0x06#6 rs 0 imm
  | .bgtz rs imm => encodeImm 0x07#6 rs 0 imm
  | .bltz rs imm => encodeRegimm rs 0x00#5 imm
  | .bgez rs imm => encodeRegimm rs 0x01#5 imm
  | .bltzal rs imm => encodeRegimm rs 0x10#5 imm
  | .bgezal rs imm => encodeRegimm rs 0x11#5 imm
  | .j target => encodeJump 0x02#6 target
  | .jal target => encodeJump 0x03#6 target
  | .jr rs => encodeSpecial rs 0 0 0 0x08#6
  | .jalr rd rs => encodeSpecial rs 0 rd 0 0x09#6
  | .syscall code => encodeCode code 0x0C#6
  | .brk code => encodeCode code 0x0D#6
  | .mfc0 rt cr => encodeCop0Move 0x00#5 rt cr
  | .mtc0 rt cr => encodeCop0Move 0x04#5 rt cr
  | .rfe => 0x42000010#32

/-! ### The opcode table -/

/-- A row of spec/opcode_table.json: a word is the row's instruction when its bits under `mask` are `pattern`. -/
structure TableRow where
  mask    : Word
  pattern : Word
  deriving DecidableEq, Repr

/-- `w` is a word of the row. -/
def TableRow.matches (r : TableRow) (w : Word) : Bool := w &&& r.mask == r.pattern

/-- The row of spec/opcode_table.json an instruction comes from. -/
def tableRow : Instr → TableRow
  | .add _ _ _ => ⟨0xFC00003F#32, 0x00000020#32⟩
  | .addu _ _ _ => ⟨0xFC00003F#32, 0x00000021#32⟩
  | .sub _ _ _ => ⟨0xFC00003F#32, 0x00000022#32⟩
  | .subu _ _ _ => ⟨0xFC00003F#32, 0x00000023#32⟩
  | .slt _ _ _ => ⟨0xFC00003F#32, 0x0000002A#32⟩
  | .sltu _ _ _ => ⟨0xFC00003F#32, 0x0000002B#32⟩
  | .addi _ _ _ => ⟨0xFC000000#32, 0x20000000#32⟩
  | .addiu _ _ _ => ⟨0xFC000000#32, 0x24000000#32⟩
  | .slti _ _ _ => ⟨0xFC000000#32, 0x28000000#32⟩
  | .sltiu _ _ _ => ⟨0xFC000000#32, 0x2C000000#32⟩
  | .mult _ _ => ⟨0xFC00003F#32, 0x00000018#32⟩
  | .multu _ _ => ⟨0xFC00003F#32, 0x00000019#32⟩
  | .div _ _ => ⟨0xFC00003F#32, 0x0000001A#32⟩
  | .divu _ _ => ⟨0xFC00003F#32, 0x0000001B#32⟩
  | .mfhi _ => ⟨0xFC00003F#32, 0x00000010#32⟩
  | .mflo _ => ⟨0xFC00003F#32, 0x00000012#32⟩
  | .mthi _ => ⟨0xFC00003F#32, 0x00000011#32⟩
  | .mtlo _ => ⟨0xFC00003F#32, 0x00000013#32⟩
  | .and _ _ _ => ⟨0xFC00003F#32, 0x00000024#32⟩
  | .or _ _ _ => ⟨0xFC00003F#32, 0x00000025#32⟩
  | .xor _ _ _ => ⟨0xFC00003F#32, 0x00000026#32⟩
  | .nor _ _ _ => ⟨0xFC00003F#32, 0x00000027#32⟩
  | .andi _ _ _ => ⟨0xFC000000#32, 0x30000000#32⟩
  | .ori _ _ _ => ⟨0xFC000000#32, 0x34000000#32⟩
  | .xori _ _ _ => ⟨0xFC000000#32, 0x38000000#32⟩
  | .lui _ _ => ⟨0xFC000000#32, 0x3C000000#32⟩
  | .sll _ _ _ => ⟨0xFC00003F#32, 0x00000000#32⟩
  | .srl _ _ _ => ⟨0xFC00003F#32, 0x00000002#32⟩
  | .sra _ _ _ => ⟨0xFC00003F#32, 0x00000003#32⟩
  | .sllv _ _ _ => ⟨0xFC00003F#32, 0x00000004#32⟩
  | .srlv _ _ _ => ⟨0xFC00003F#32, 0x00000006#32⟩
  | .srav _ _ _ => ⟨0xFC00003F#32, 0x00000007#32⟩
  | .lb _ _ _ => ⟨0xFC000000#32, 0x80000000#32⟩
  | .lbu _ _ _ => ⟨0xFC000000#32, 0x90000000#32⟩
  | .lh _ _ _ => ⟨0xFC000000#32, 0x84000000#32⟩
  | .lhu _ _ _ => ⟨0xFC000000#32, 0x94000000#32⟩
  | .lw _ _ _ => ⟨0xFC000000#32, 0x8C000000#32⟩
  | .lwl _ _ _ => ⟨0xFC000000#32, 0x88000000#32⟩
  | .lwr _ _ _ => ⟨0xFC000000#32, 0x98000000#32⟩
  | .sb _ _ _ => ⟨0xFC000000#32, 0xA0000000#32⟩
  | .sh _ _ _ => ⟨0xFC000000#32, 0xA4000000#32⟩
  | .sw _ _ _ => ⟨0xFC000000#32, 0xAC000000#32⟩
  | .swl _ _ _ => ⟨0xFC000000#32, 0xA8000000#32⟩
  | .swr _ _ _ => ⟨0xFC000000#32, 0xB8000000#32⟩
  | .beq _ _ _ => ⟨0xFC000000#32, 0x10000000#32⟩
  | .bne _ _ _ => ⟨0xFC000000#32, 0x14000000#32⟩
  | .blez _ _ => ⟨0xFC000000#32, 0x18000000#32⟩
  | .bgtz _ _ => ⟨0xFC000000#32, 0x1C000000#32⟩
  | .bltz _ _ => ⟨0xFC1F0000#32, 0x04000000#32⟩
  | .bgez _ _ => ⟨0xFC1F0000#32, 0x04010000#32⟩
  | .bltzal _ _ => ⟨0xFC1F0000#32, 0x04100000#32⟩
  | .bgezal _ _ => ⟨0xFC1F0000#32, 0x04110000#32⟩
  | .j _ => ⟨0xFC000000#32, 0x08000000#32⟩
  | .jal _ => ⟨0xFC000000#32, 0x0C000000#32⟩
  | .jr _ => ⟨0xFC00003F#32, 0x00000008#32⟩
  | .jalr _ _ => ⟨0xFC00003F#32, 0x00000009#32⟩
  | .syscall _ => ⟨0xFC00003F#32, 0x0000000C#32⟩
  | .brk _ => ⟨0xFC00003F#32, 0x0000000D#32⟩
  | .mfc0 _ _ => ⟨0xFFE00000#32, 0x40000000#32⟩
  | .mtc0 _ _ => ⟨0xFFE00000#32, 0x40800000#32⟩
  | .rfe => ⟨0xFE00003F#32, 0x42000010#32⟩

end Sys2Proof
end

