-- ==== Sys2Proof/Machine/Dma.lean ====
section
/-!
DEFINITION. The DMA register block as the bus sees it (20_memory.md R230 to R232) and the transfer pump at the end of
a tick (R240, R241).
-/

namespace Sys2Proof.Machine

/-- The seven channels (10_state.md R140). -/
abbrev Channel := Fin 7

/-- A DMA register (R230). -/
inductive DmaReg where
  | madr (c : Channel)
  | bcr (c : Channel)
  | chcr (c : Channel)
  | dpcr
  | dicr
  deriving DecidableEq, Repr

/-- The channel number `(address >> 4) & 7`, if there is such a channel (R230). -/
def channelOf (lo : Nat) : Option Channel :=
  if h : lo / 16 % 8 < 7 then some ⟨lo / 16 % 8, h⟩ else none

/-- The register a channel's selector names: 0x0 MADR, 0x4 BCR, 0x8 and 0xC CHCR (R230). -/
def channelReg (c : Channel) (selector : Nat) : DmaReg :=
  match selector with
  | 0 => .madr c
  | 1 => .bcr c
  | _ => .chcr c

/-- The register at masked address `m` of the DMA window, or none for the hole 0xF8, 0xFC (R230, R232); 0xF0 and 0xF4
are tested before the channels. An address that is no multiple of 4 names its word's register (assumption log
entry 8: no access of the CPU reaches one). -/
def dmaRegAt (m : Word) : Option DmaReg :=
  let lo := m.toNat % 256 / 4 * 4
  if lo = 0xF0 then some .dpcr
  else if lo = 0xF4 then some .dicr
  else (channelOf lo).map (fun c => channelReg c (lo / 4 % 4))

/-- The register's value (R231). -/
def readDma (d : DmaRegs) (r : DmaReg) : Word :=
  match r with
  | .madr c => d.madr[c]
  | .bcr c => d.bcr[c]
  | .chcr c => d.chcr[c]
  | .dpcr => d.dpcr
  | .dicr => d.dicr

/-- The register written, unchanged and with no other effect (R231). -/
def writeDma (d : DmaRegs) (r : DmaReg) (v : Word) : DmaRegs :=
  match r with
  | .madr c => { d with madr := d.madr.set c v }
  | .bcr c => { d with bcr := d.bcr.set c v }
  | .chcr c => { d with chcr := d.chcr.set c v }
  | .dpcr => { d with dpcr := v }
  | .dicr => { d with dicr := v }

/-! ### The transfer pump -/

/-- The channels, in order. -/
def channels : List Channel := [0, 1, 2, 3, 4, 5, 6]

/-- The pump recognises the channel's CHCR. The reset value 0 is no pattern (DEDUCED, assumption log entry 4); which
other values are is Config's. -/
def recognised (c : Channel) (v : Word) : Bool := v != 0#32 && Config.chcrPattern c v

/-- Some channel holds a recognised pattern (R241). -/
def pumpActs (d : DmaRegs) : Bool := channels.any (fun c => recognised c d.chcr[c])

/-- The pump's RAM writes at their indexes in RAM (R210, R241). -/
def ramCells (cells : List Host.Cell) : List Host.Cell := cells.map (fun c => (ram.cell c.1 0, c.2))

/-- What a call of the pump changes: the DMA registers, RAM and the GP0 stream, not gated by isolation (R241). -/
def State.applyPump (s : State) (p : PumpEffect) : State :=
  { s with
    dma := p.dma
    mem := s.mem.writeAll (ramCells p.ramWrites)
    outputs := s.outputs ++ p.gp0.map Event.gp0 }

/-- `DMA_PUMP()` (40_tick.md R415): nothing unless some channel holds a recognised pattern (R241 b). -/
def State.pump (s : State) : State :=
  if pumpActs s.dma then s.applyPump (Config.dmaPump s.dma s.mem.ramPart) else s

end Sys2Proof.Machine
end

