-- ==== Sys2Proof/Machine/Bus.lean ====
section
/-!
DEFINITION. The bus: address masking, the region table, reads and stores of 1, 2 and 4 bytes, the cache-isolation gate
(20_memory.md R200 to R237). The bus raises no exception (R204).
-/

namespace Sys2Proof.Machine

/-- The widths of an access (R206). -/
inductive Width where
  | byte
  | half
  | word
  deriving DecidableEq, Repr

/-- How many bytes an access moves. -/
def Width.bytes : Width → Nat
  | .byte => 1
  | .half => 2
  | .word => 4

/-- The alignment the CPU asks of an access before it calls the bus (R204): `a & 1 = 0`, `a & 3 = 0`. -/
def Width.aligned (width : Width) (a : Word) : Bool :=
  match width with
  | .byte => true
  | .half => a &&& 1#32 == 0#32
  | .word => a &&& 3#32 == 0#32

/-! ### The router -/

/-- The masked address `addr & 0x1FFFFFFF` (R201). -/
def maskAddress (addr : Word) : Word := addr &&& 0x1FFFFFFF#32

/-- The regions of R211. -/
inductive Region where
  | ram
  | scratchpad
  | ioStub
  | dma
  | gpu
  | bios
  | unmapped
  deriving DecidableEq, Repr

/-- The region table over a masked address, first match wins, every range half-open (R211). -/
def regionOf (m : Word) : Region :=
  let a := m.toNat
  if a < 0x00200000 then .ram
  else if 0x1F800000 ≤ a ∧ a < 0x1F801000 then .scratchpad
  else if 0x1F801000 ≤ a ∧ a < 0x1F801080 then .ioStub
  else if 0x1F801080 ≤ a ∧ a < 0x1F801100 then .dma
  else if 0x1F801810 ≤ a ∧ a < 0x1F801818 then .gpu
  else if 0x1FC00000 ≤ a ∧ a < 0x20000000 then .bios
  else .unmapped

/-! ### Byte devices: little-endian composition (R202, R210) -/

/-- Byte `k` of an access at masked address `m` of device `d`. -/
def readDeviceByte (mem : Memory) (d : ByteDevice) (m : Word) (k : Nat) : Byte := mem.read (d.cell m.toNat k)

/-- The value of a read, zero-extended to a word, the least significant byte at the lowest address. -/
def readDevice (mem : Memory) (d : ByteDevice) (m : Word) (width : Width) : Word :=
  let b := readDeviceByte mem d m
  match width with
  | .byte => (b 0).setWidth 32
  | .half => (b 1 ++ b 0).setWidth 32
  | .word => b 3 ++ b 2 ++ b 1 ++ b 0

/-- The cells a store of `v` writes: byte `k` is `v[8k+7:8k]`. -/
def storeCells (d : ByteDevice) (m : Word) (width : Width) (v : Word) : List Host.Cell :=
  (List.range width.bytes).map (fun k => (d.cell m.toNat k, byteOfWord v k))

/-- Memory after a store of `v` to device `d`. -/
def writeDevice (mem : Memory) (d : ByteDevice) (m : Word) (width : Width) (v : Word) : Memory :=
  mem.writeAll (storeCells d m width v)

/-! ### Reads -/

/-- `draw_io_stub`, as many bytes as the access moves (R220). -/
def ioStubDraw (n : Nat) (width : Width) : Word :=
  match width with
  | .byte => (Config.drawIoByte n).setWidth 32
  | .half => (Config.drawIoHalf n).setWidth 32
  | .word => Config.drawIoWord n

/-- A read of an unmapped address: 0xFFFFFFFF for a word, a draw for a narrow read; a diagnostic event (R219, R20). -/
def State.readUnmapped (s : State) (m : Word) (width : Width) : Word × State :=
  let s' := s.emit (.unmappedRead m width.bytes)
  match width with
  | .byte => ((Config.drawUnmappedByte s.draws).setWidth 32, s'.nextDraw)
  | .half => ((Config.drawUnmappedHalf s.draws).setWidth 32, s'.nextDraw)
  | .word => (0xFFFFFFFF#32, s')

/-- A word read of the DMA window: the register, or a draw in the hole (R231, R232). -/
def State.readDmaWord (s : State) (m : Word) : Word × State :=
  match dmaRegAt m with
  | some r => (readDma s.dma r, s)
  | none => (Config.drawDmaHole s.draws, s.nextDraw)

/-- `MemRead(addr, n)` (00_scope.md R14): the value and the state after it, which differs only in the model's draw
counter and the diagnostics (R225). A narrow read of a word-register window is refused (R233, R237). -/
def State.busRead (s : State) (addr : Word) (width : Width) : Except Refusal (Word × State) :=
  let m := maskAddress addr
  match regionOf m with
  | .ram => .ok (readDevice s.mem ram m width, s)
  | .scratchpad => .ok (readDevice s.mem scratchpad m width, s)
  | .bios => .ok (readDevice s.mem bios m width, s)
  | .ioStub => .ok (ioStubDraw s.draws width, s.nextDraw)
  | .dma => if width = .word then .ok (s.readDmaWord m) else .error .narrowDmaAccess
  | .gpu => if width = .word then .ok (Config.drawGpuRead s.draws, s.nextDraw) else .error .narrowGpuAccess
  | .unmapped => .ok (s.readUnmapped m width)

/-! ### Stores -/

/-- The cache-isolation gate suppresses a store: SR bit 16, IsC, and the virtual address below 0xFFFE0000 (R223). -/
def State.isolates (s : State) (addr : Word) : Bool :=
  (s.cop0At srIdx).getLsbD 16 && decide (addr.toNat < 0xFFFE0000)

/-- A word store to the DMA window: the register takes the value; the hole takes nothing (R231, R232). -/
def State.writeDmaWord (s : State) (m v : Word) : State :=
  match dmaRegAt m with
  | some r => { s with dma := writeDma s.dma r v }
  | none => s

/-- A word store to the GPU window: GP0 at 0x1F801810, GP1 at 0x1F801814 (R234, R235). -/
def gpuEvent (m v : Word) : Event := if m.toNat < 0x1F801814 then .gp0 v else .gp1 v

/-- `MemWrite(addr, n, v)` (R222): the gate, the mask, the region. BIOS and the I/O stub take nothing (R216, R220);
an unmapped store has no effect but a diagnostic event (R224); a narrow store to a word-register window is refused. -/
def State.busWrite (s : State) (addr : Word) (width : Width) (v : Word) : Except Refusal State :=
  if s.isolates addr then .ok s
  else
    let m := maskAddress addr
    match regionOf m with
    | .ram => .ok { s with mem := writeDevice s.mem ram m width v }
    | .scratchpad => .ok { s with mem := writeDevice s.mem scratchpad m width v }
    | .bios => .ok s
    | .ioStub => .ok s
    | .dma => if width = .word then .ok (s.writeDmaWord m v) else .error .narrowDmaAccess
    | .gpu => if width = .word then .ok (s.emit (gpuEvent m v)) else .error .narrowGpuAccess
    | .unmapped => .ok (s.emit (.unmappedStore m width.bytes))

/-- The addresses of the bytes a store writes; none where the isolation gate or the region takes the store (R211,
R222, R223). -/
def State.storedBytes (s : State) (addr : Word) (width : Width) : List Nat :=
  if s.isolates addr then []
  else
    match regionOf (maskAddress addr) with
    | .ram => (List.range width.bytes).map (ram.cell (maskAddress addr).toNat)
    | .scratchpad => (List.range width.bytes).map (scratchpad.cell (maskAddress addr).toNat)
    | .ioStub | .dma | .gpu | .bios | .unmapped => []

/-- The byte of memory at address `a` (RAM, scratchpad or BIOS ROM). -/
def State.readByte (s : State) (a : Nat) : Byte := s.mem.read a

end Sys2Proof.Machine
end

