-- ==== Sys2Proof/Machine/Load.lean ====
section
/-!
DEFINITION. Loads (44_load.md). Every register write is a DelayLoad (R800).
-/

namespace Sys2Proof.Machine

/-- The load sequence (R800): the alignment check, which raises AdEL (R801); one bus read; one DelayLoad of what `f`
makes of the value read. -/
def State.load (s : State) (rt : RegIdx) (addr : Word) (width : Width) (f : Word → Word) : Result :=
  if width.aligned addr then
    match s.busRead addr width with
    | .ok (v, s') => .next (s'.delayLoad rt (f v))
    | .error r => .refused r
  else .next (s.enterException (.adel addr))

/-- LB (R810): the byte at `ea`, sign-extended. -/
def execLb (rt rs : RegIdx) (imm : BitVec 16) (s : State) : Result :=
  s.load rt (s.ea rs imm) .byte sextLow8

/-- LBU (R811): the byte at `ea`, zero-extended. -/
def execLbu (rt rs : RegIdx) (imm : BitVec 16) (s : State) : Result :=
  s.load rt (s.ea rs imm) .byte id

/-- LH (R812): the halfword at `ea`, sign-extended; AdEL when `ea` is odd. -/
def execLh (rt rs : RegIdx) (imm : BitVec 16) (s : State) : Result :=
  s.load rt (s.ea rs imm) .half sextLow16

/-- LHU (R813): the halfword at `ea`, zero-extended; AdEL when `ea` is odd. -/
def execLhu (rt rs : RegIdx) (imm : BitVec 16) (s : State) : Result :=
  s.load rt (s.ea rs imm) .half id

/-- LW (R814): the word at `ea`; AdEL when `ea` is no multiple of 4. -/
def execLw (rt rs : RegIdx) (imm : BitVec 16) (s : State) : Result :=
  s.load rt (s.ea rs imm) .word id

/-- LWL (R815): the aligned word merged by LWL's row of R807. -/
def execLwl (rt rs : RegIdx) (imm : BitVec 16) (s : State) : Result :=
  let ea := s.ea rs imm
  s.load rt (wordBase ea) .word (lwlMerge (byteLane ea) (s.mergeInput rt))

/-- LWR (R816): the aligned word merged by LWR's row of R807. -/
def execLwr (rt rs : RegIdx) (imm : BitVec 16) (s : State) : Result :=
  let ea := s.ea rs imm
  s.load rt (wordBase ea) .word (lwrMerge (byteLane ea) (s.mergeInput rt))

end Sys2Proof.Machine
end

