-- ==== Sys2Proof/Machine/LogicShift.lean ====
section
/-!
DEFINITION. Logic, LUI and shifts (43_logic_shift.md). Every write is a direct write.
-/

namespace Sys2Proof.Machine

/-- AND (R700): bitwise and. -/
def execAnd (rd rs rt : RegIdx) (s : State) : Result :=
  .next (s.writeReg rd (s.reg rs &&& s.reg rt))

/-- OR (R701): bitwise or. -/
def execOr (rd rs rt : RegIdx) (s : State) : Result :=
  .next (s.writeReg rd (s.reg rs ||| s.reg rt))

/-- XOR (R702): bitwise xor. -/
def execXor (rd rs rt : RegIdx) (s : State) : Result :=
  .next (s.writeReg rd (s.reg rs ^^^ s.reg rt))

/-- NOR (R703): bitwise not of or. -/
def execNor (rd rs rt : RegIdx) (s : State) : Result :=
  .next (s.writeReg rd (~~~ (s.reg rs ||| s.reg rt)))

/-- ANDI (R704): bitwise and with the zero-extended immediate. -/
def execAndi (rt rs : RegIdx) (imm : BitVec 16) (s : State) : Result :=
  .next (s.writeReg rt (s.reg rs &&& zext16 imm))

/-- ORI (R705): bitwise or with the zero-extended immediate. -/
def execOri (rt rs : RegIdx) (imm : BitVec 16) (s : State) : Result :=
  .next (s.writeReg rt (s.reg rs ||| zext16 imm))

/-- XORI (R706): bitwise xor with the zero-extended immediate. -/
def execXori (rt rs : RegIdx) (imm : BitVec 16) (s : State) : Result :=
  .next (s.writeReg rt (s.reg rs ^^^ zext16 imm))

/-- LUI (R707): `imm << 16`, a direct write. -/
def execLui (rt : RegIdx) (imm : BitVec 16) (s : State) : Result :=
  .next (s.writeReg rt (zext16 imm <<< 16))

/-- SLL (R708): left shift, zero fill by the field sa. -/
def execSll (rd rt : RegIdx) (sa : Nat) (s : State) : Result :=
  .next (s.writeReg rd (s.reg rt <<< sa))

/-- SRL (R709): logical right shift by the field sa. -/
def execSrl (rd rt : RegIdx) (sa : Nat) (s : State) : Result :=
  .next (s.writeReg rd (s.reg rt >>> sa))

/-- SRA (R712): arithmetic right shift by the field sa. -/
def execSra (rd rt : RegIdx) (sa : Nat) (s : State) : Result :=
  .next (s.writeReg rd ((s.reg rt).sshiftRight sa))

/-- SLLV (R713): left shift, zero fill by `x[rs] & 0x1F`. -/
def execSllv (rd rt rs : RegIdx) (s : State) : Result :=
  .next (s.writeReg rd (s.reg rt <<< shiftCount (s.reg rs)))

/-- SRLV (R714): logical right shift by `x[rs] & 0x1F`. -/
def execSrlv (rd rt rs : RegIdx) (s : State) : Result :=
  .next (s.writeReg rd (s.reg rt >>> shiftCount (s.reg rs)))

/-- SRAV (R715): arithmetic right shift by `x[rs] & 0x1F`. -/
def execSrav (rd rt rs : RegIdx) (s : State) : Result :=
  .next (s.writeReg rd ((s.reg rt).sshiftRight (shiftCount (s.reg rs))))

end Sys2Proof.Machine
end

