-- ==== Sys2Proof/Machine/MulDiv.lean ====
section
/-!
DEFINITION. Multiply, divide and HI/LO moves (42_muldiv.md).
-/

namespace Sys2Proof.Machine

/-! ### Products and quotients -/

/-- `s32(a) *Z s32(b)`, in 64-bit two's complement (R610). -/
def signedProduct (a b : Word) : BitVec 64 := BitVec.ofInt 64 (a.toInt * b.toInt)

/-- `a *Z b` on unsigned values (R610). -/
def unsignedProduct (a b : Word) : BitVec 64 := BitVec.ofNat 64 (a.toNat * b.toNat)

/-- `hi <- p[63:32]; lo <- p[31:0]` (R610). -/
def State.writeProduct (s : State) (p : BitVec 64) : State :=
  { s with hi := p.extractLsb' 32 32, lo := p.extractLsb' 0 32 }

/-- DIV's `lo` (R602, R611, R612): truncation toward zero outside the special cases. -/
def signedQuotient (n d : Word) : Word :=
  if d = 0#32 then (if n.toInt ≥ 0 then 0xFFFFFFFF#32 else 0x00000001#32)
  else if n = 0x80000000#32 ∧ d = 0xFFFFFFFF#32 then 0x80000000#32
  else BitVec.ofInt 32 (n.toInt.tdiv d.toInt)

/-- DIV's `hi` (R602, R611, R612): `n - q * d` outside the special cases. -/
def signedRemainder (n d : Word) : Word :=
  if d = 0#32 then n
  else if n = 0x80000000#32 ∧ d = 0xFFFFFFFF#32 then 0x00000000#32
  else BitVec.ofInt 32 (n.toInt - n.toInt.tdiv d.toInt * d.toInt)

/-- DIVU's `lo` (R603, R612). -/
def unsignedQuotient (n d : Word) : Word :=
  if d = 0#32 then 0xFFFFFFFF#32 else BitVec.ofNat 32 (n.toNat / d.toNat)

/-- DIVU's `hi` (R603, R612). -/
def unsignedRemainder (n d : Word) : Word :=
  if d = 0#32 then n else BitVec.ofNat 32 (n.toNat % d.toNat)

/-! ### The instructions -/

/-- MULT (R600): the exact signed product in hi and lo. -/
def execMult (rs rt : RegIdx) (s : State) : Result :=
  .next (s.writeProduct (signedProduct (s.reg rs) (s.reg rt)))

/-- MULTU (R601): the exact unsigned product in hi and lo. -/
def execMultu (rs rt : RegIdx) (s : State) : Result :=
  .next (s.writeProduct (unsignedProduct (s.reg rs) (s.reg rt)))

/-- DIV (R602): signed division, with the special cases of R612. -/
def execDiv (rs rt : RegIdx) (s : State) : Result :=
  let n := s.reg rs
  let d := s.reg rt
  .next { s with hi := signedRemainder n d, lo := signedQuotient n d }

/-- DIVU (R603): unsigned division, with the special case of R612. -/
def execDivu (rs rt : RegIdx) (s : State) : Result :=
  let n := s.reg rs
  let d := s.reg rt
  .next { s with hi := unsignedRemainder n d, lo := unsignedQuotient n d }

/-- MFHI (R604): `x[rd] <- hi`, a direct write. -/
def execMfhi (rd : RegIdx) (s : State) : Result :=
  .next (s.writeReg rd s.hi)

/-- MFLO (R605): `x[rd] <- lo`, a direct write. -/
def execMflo (rd : RegIdx) (s : State) : Result :=
  .next (s.writeReg rd s.lo)

/-- MTHI (R606): `hi <- x[rs]`. -/
def execMthi (rs : RegIdx) (s : State) : Result :=
  .next { s with hi := s.reg rs }

/-- MTLO (R607): `lo <- x[rs]`. -/
def execMtlo (rs : RegIdx) (s : State) : Result :=
  .next { s with lo := s.reg rs }

end Sys2Proof.Machine
end

