-- ==== Sys2Proof/Machine/Store.lean ====
section
/-!
DEFINITION. Stores (45_store.md). Each writes memory at once through the bus and touches no register (R900).
-/

namespace Sys2Proof.Machine

/-- The store sequence (R900): the alignment check, which raises AdES (R901); one bus store. -/
def State.store (s : State) (addr : Word) (width : Width) (v : Word) : Result :=
  if width.aligned addr then
    match s.busWrite addr width v with
    | .ok s' => .next s'
    | .error r => .refused r
  else .next (s.enterException (.ades addr))

/-- SWL and SWR (R903): one read and then one store, through the bus, of the aligned word that holds byte `ea`;
`merge` makes the stored word of `k = ea[1:0]` and the word read. -/
def State.storePartial (s : State) (ea : Word) (merge : BitVec 2 → Word → Word) : Result :=
  match s.busRead (wordBase ea) .word with
  | .ok (mem, s') => s'.store (wordBase ea) .word (merge (byteLane ea) mem)
  | .error r => .refused r

/-- SB (R910): the low byte of `x[rt]` to `ea`. -/
def execSb (rt rs : RegIdx) (imm : BitVec 16) (s : State) : Result :=
  s.store (s.ea rs imm) .byte (s.reg rt)

/-- SH (R911): the low halfword of `x[rt]` to `ea`; AdES when `ea` is odd. -/
def execSh (rt rs : RegIdx) (imm : BitVec 16) (s : State) : Result :=
  s.store (s.ea rs imm) .half (s.reg rt)

/-- SW (R912): `x[rt]` to `ea`; AdES when `ea` is no multiple of 4. -/
def execSw (rt rs : RegIdx) (imm : BitVec 16) (s : State) : Result :=
  s.store (s.ea rs imm) .word (s.reg rt)

/-- SWL (R904): one read and one store of the aligned word, merged by SWL's row of R903. -/
def execSwl (rt rs : RegIdx) (imm : BitVec 16) (s : State) : Result :=
  s.storePartial (s.ea rs imm) (fun k mem => swlMerge k mem (s.reg rt))

/-- SWR (R905): one read and one store of the aligned word, merged by SWR's row of R903. -/
def execSwr (rt rs : RegIdx) (imm : BitVec 16) (s : State) : Result :=
  s.storePartial (s.ea rs imm) (fun k mem => swrMerge k mem (s.reg rt))

end Sys2Proof.Machine
end

