-- ==== Sys2Proof/Machine/System.lean ====
section
/-!
DEFINITION. System instructions and COP0 moves (47_system.md). None is privileged (60_exceptions.md R1230).
-/

namespace Sys2Proof.Machine

/-- SYSCALL (R1100): takes Syscall; the code is ignored. -/
def execSyscall (_code : BitVec 20) (s : State) : Result :=
  .next (s.enterException .syscall)

/-- BREAK (R1101): takes Breakpoint; the code is ignored. -/
def execBreak (_code : BitVec 20) (s : State) : Result :=
  .next (s.enterException .breakpoint)

/-- MFC0 (R1110): `DelayLoad(rt, cop0[rd])`. -/
def execMfc0 (rt cr : RegIdx) (s : State) : Result :=
  .next (s.delayLoad rt (s.cop0At cr))

/-- MTC0 (R1111): `Cop0Write(rd, x[rt])`, through the write mask, at once. -/
def execMtc0 (rt cr : RegIdx) (s : State) : Result :=
  .next (s.writeCop0 cr (s.reg rt))

/-- RFE (R1122): SR's mode stack popped; `pc` not changed. -/
def execRfe (s : State) : Result :=
  .next s.popModeStack

end Sys2Proof.Machine
end

