-- ==== Sys2Proof/Machine/Tick.lean ====
section
/-!
DEFINITION. The parts of a tick (40_tick.md R400) around the execution of an instruction: what happens before the
fetch, the fetch, what happens after execute, and where a program's word lies so that the tick fetches it.
-/

namespace Sys2Proof.Machine

/-! ### Before the fetch -/

/-- The transients of a tick (R403, R145). -/
def State.startTransients (s : State) : State :=
  { s with directWritten := none, trapped := false, branchDelay := s.branch }

/-- The TTY hook's condition (R402). -/
def State.ttyCalled (s : State) : Bool :=
  let m := maskAddress s.pc
  (m == 0x000000A0#32 && s.reg 9 == 0x0000003C#32) || (m == 0x000000B0#32 && s.reg 9 == 0x0000003D#32)

/-- The TTY hook (R402): the low byte of `x[4]`, and no other change. -/
def State.ttyHook (s : State) : State :=
  if s.ttyCalled then s.emit (.tty ((s.reg 4).extractLsb' 0 8)) else s

/-- FIFO advance (R401). -/
def State.advanceFifo (s : State) : State := { s with slot1 := s.slot0, slot0 := Slot.empty }

/-- The steps of a tick before the fetch, in the order of R400. -/
def State.beginTick (s : State) : State := s.startTransients.ttyHook.advanceFifo

/-! ### The fetch (R404) -/

/-- The fetch is made only at an aligned `pc`; otherwise AdEL is raised instead. -/
def State.fetchable (s : State) : Bool := Width.word.aligned s.pc

/-- `Fetch(pc)`, a word read through the bus. -/
def State.fetch (s : State) : Except Refusal (Word × State) := s.busRead s.pc .word

/-- The exception of a misaligned fetch. -/
def State.faultFetch (s : State) : State := s.enterException (.adel s.pc)

/-! ### After execute -/

/-- PC advance, unconditional (R406). -/
def State.advancePc (s : State) : State := { s with pc := s.pc + 4#32 }

/-- Branch resolution at the end of a delay-slot tick that took no exception (R411). -/
def State.resolveBranch (s : State) : State :=
  if s.branchDelay && !s.trapped then { s with pc := s.branchAddress, branch := false } else s

/-- FIFO commit (R413). -/
def State.commitLoad (s : State) : State :=
  let s' := { s with slot1 := Slot.empty }
  if s.slot1.target ≠ 0 ∧ s.slot1.modified = false then s'.putReg s.slot1.target s.slot1.value else s'

/-- `x[0] <- 0` (R414). -/
def State.clearZero (s : State) : State := { s with regs := s.regs.set 0 0#32 }

/-- The transients are not kept across ticks (R145). -/
def State.dropTransients (s : State) : State := { s with directWritten := none, trapped := false }

/-- The steps of a tick after execute, in the order of R400. -/
def State.endTick (s : State) : State :=
  s.advancePc.resolveBranch.commitLoad.clearZero.pump.dropTransients

/-- The end of a tick after what executing answered: nothing more happens after a stop. -/
def finishTick (r : Result) : Result :=
  match r with
  | .next s => .next s.endTick
  | .fault f => .fault f
  | .refused q => .refused q

/-! ### Placing a word where the next tick fetches it -/

/-- `s` with `w` where a fetch at `s.pc` reads it: in RAM, scratchpad or BIOS ROM (as the loader of the image puts it,
not as a store does), or in a DMA register. No word can be placed where a fetch reads a draw or a fill value. -/
def State.placeWord (s : State) (w : Word) : State :=
  let m := maskAddress s.pc
  match regionOf m with
  | .ram => { s with mem := writeDevice s.mem ram m .word w }
  | .scratchpad => { s with mem := writeDevice s.mem scratchpad m .word w }
  | .bios => { s with mem := writeDevice s.mem bios m .word w }
  | .dma => s.writeDmaWord m w
  | .ioStub | .gpu | .unmapped => s

end Sys2Proof.Machine
end

