-- ==== Sys2Proof/Machine/Step.lean ====
section
/-!
DEFINITION. One tick (40_tick.md R400).
-/

namespace Sys2Proof.Machine

/-- A word that was fetched is decoded and its instruction executed; a word that decodes to none is refused (R405,
30_encoding.md R340). -/
def runWord (w : Word) (s : State) : Result :=
  match decode w with
  | .ok i => finishTick (exec i s)
  | .error r => .refused (.undecodable r)

/-- A tick: the steps before the fetch, the fetch or its exception, execute, the steps after (R400, R404). A state
marked refused has none (10_state.md R147). -/
def step (s : State) : Host.Outcome State Fault Refusal :=
  if s.refused then .refused .alreadyRefused
  else if s.beginTick.fetchable then
    match s.beginTick.fetch with
    | .ok (w, s') => runWord w s'
    | .error r => .refused r
  else finishTick (.next s.beginTick.faultFetch)

/-- `s` with the instruction whose opcode-table word is `w` where the next tick fetches it. -/
def State.withFetchWord (s : State) (nbits w : Nat) : State := s.placeWord (tableWord nbits w)

end Sys2Proof.Machine
end

