-- ==== Sys2Proof/Machine/Launch.lean ====
section
/-!
DEFINITION. What the host does to the block (00_scope.md R18, R21): the launch with a BIOS image, the executable
side-load between two ticks (70_reset_and_hazards.md R1306), and a run of ticks under the launch parameters of R9.
-/

namespace Sys2Proof.Machine

/-- `EXE_SIZE_UNIT` (R9, R1306): words as the source says, or bytes. -/
inductive SizeUnit where
  | words
  | bytes
  deriving DecidableEq, Repr

/-- The launch parameters that start a run (R9). -/
structure Launch where
  biosImage : List Byte
  exeImage  : Option (List Byte)
  exeAt     : Nat
  sizeUnit  : SizeUnit
  deriving DecidableEq, Repr

/-- `le32(o)`: the little-endian word at offset `o` of a file (R1306). -/
def le32 (file : List Byte) (o : Nat) : Word :=
  wordOfBytes (file.getD o 0#8) (file.getD (o + 1) 0#8) (file.getD (o + 2) 0#8) (file.getD (o + 3) 0#8)

/-- The payload's byte count `n` (R1306); `size * 4` is modulo 2^32, as R10 reads `*` (assumption log entry 9). -/
def payloadBytes (unit : SizeUnit) (size : Word) : Nat :=
  match unit with
  | .words => (size * 4#32).toNat
  | .bytes => size.toNat

/-- The payload's file offset (R1306). -/
def payloadOffset : Nat := 0x800

/-- The RAM cells the side-load writes: byte `k` of the payload at `(dest + k) & 0x1FFFFF` (R1306). -/
def payloadCells (dest : Word) (payload : List Byte) : List Host.Cell :=
  (cellsFrom 0 payload).map (fun c => (ram.cell dest.toNat c.1, c.2))

/-- The stack pointer of the header: applied to `x[29]` and `x[30]` unless it is zero (R1306). -/
def State.applyStackPointer (s : State) (sp : Word) : State :=
  if sp = 0#32 then s else (s.putReg 29 sp).putReg 30 sp

/-- The file holds its header and its whole payload; a shorter one is a fatal startup error (R1306). -/
def exeFits (unit : SizeUnit) (file : List Byte) : Bool :=
  decide (payloadOffset + payloadBytes unit (le32 file 0x1C) ≤ file.length)

/-- The executable side-load of file `file` (R1306); none where the file is too short. -/
def State.sideLoad (s : State) (unit : SizeUnit) (file : List Byte) : Option State :=
  if exeFits unit file then
    let payload := (file.drop payloadOffset).take (payloadBytes unit (le32 file 0x1C))
    let s1 := { s with mem := s.mem.writeAll (payloadCells (le32 file 0x18) payload), pc := le32 file 0x10 }
    let s2 := (s1.putReg 28 (le32 file 0x14)).applyStackPointer (le32 file 0x30)
    some { s2 with branch := false, slot0 := Slot.empty, slot1 := Slot.empty }
  else none

/-- The launch has the files it needs: a full BIOS image (R21, R1302) and, where it side-loads, an executable that is not
short, whenever it is applied (R1306). -/
def Launch.complete (p : Launch) : Bool :=
  decide (p.biosImage.length = bios.size) &&
  match p.exeImage with
  | some file => exeFits p.sizeUnit file
  | none => true

/-- The state before the first tick. A missing or short file is a fatal startup error before it, so there is none
(60_exceptions.md R1221). -/
def Launch.start (p : Launch) : Option State :=
  if p.complete then some (State.resetWithBios p.biosImage) else none

/-- The host's action before tick number `k`: the side-load where `k` is `EXE_AT`, else nothing (R1306). -/
def Launch.beforeTick (p : Launch) (k : Nat) (s : State) : Option State :=
  match p.exeImage with
  | some file => if k = p.exeAt then s.sideLoad p.sizeUnit file else some s
  | none => some s

/-- `n` ticks from state `s` at the start of tick `k`: the state after them, or the first stop. None where a side-load fails,
which a launch that has a start state never meets. -/
def Launch.runFrom (p : Launch) (n k : Nat) (s : State) : Option Result :=
  match n with
  | 0 => some (.next s)
  | n' + 1 =>
    match p.beforeTick k s with
    | none => none
    | some s' =>
      match step s' with
      | .next t => Launch.runFrom p n' (k + 1) t
      | .fault f => some (.fault f)
      | .refused r => some (.refused r)

/-- The first `n` ticks of the launch; none where there is no run (R21, R1221). -/
def Launch.run (p : Launch) (n : Nat) : Option Result :=
  match p.start with
  | some s => p.runFrom n 0 s
  | none => none

end Sys2Proof.Machine
end

