-- ==== Sys2Proof/Safety.lean ====
section
/-!
DEFINITION. What claims are stated in: the invariant of the machine between two ticks, and the end of a run as an
observation (70_reset_and_hazards.md R1340).
-/

namespace Sys2Proof.Machine

/-- A COP0 register that nothing writes and that holds zero: JUMPDEST and every unnamed index (R125, R127, R132). -/
def constantZeroCop0 (i : RegIdx) : Bool :=
  match i with
  | 0 | 1 | 2 | 4 | 6 | 10 => true
  | 3 | 5 | 7 | 8 | 9 | 11 | 12 | 13 | 14 | 15 => false
  | _ => true

/-- The bits of CAUSE that are written at all: BD, IP[1:0] and ExcCode (R129). -/
def causeWritten : Word := 0x8000037C#32

/-- What holds of the machine between two ticks. -/
structure State.Inv (s : State) : Prop where
  /-- Memory is in canonical form. -/
  memWf : s.mem.wf
  /-- Every cell is a byte of RAM, scratchpad or BIOS ROM (R211). -/
  memLocated : s.mem.located
  /-- `x[0]` is stored as 0 (R101, R414). -/
  zeroReg : s.regs[0] = 0#32
  /-- Slot1 was committed or dropped (R121). -/
  slot1Empty : s.slot1 = Slot.empty
  /-- Slot0 holds the load the last tick issued, not overridden yet (R121). -/
  slot0Fresh : s.slot0.modified = false
  /-- The transients are not kept across ticks (R145). -/
  noWriteNoted : s.directWritten = none
  /-- The transients are not kept across ticks (R145). -/
  notTrapped : s.trapped = false
  /-- The machine has not been refused (R147). -/
  notRefused : s.refused = false
  /-- JUMPDEST and the unnamed COP0 registers hold 0 (R127, R132). -/
  cop0Zero : ∀ i, constantZeroCop0 i = true → s.cop0At i = 0#32
  /-- PRID holds its constant (R132). -/
  prid : s.cop0At pridIdx = resetPrid
  /-- The bits of CAUSE that nothing writes read 0 (R129). -/
  causeReserved : s.cop0At causeIdx &&& ~~~ causeWritten = 0#32
  /-- A pending branch's delay slot is at an aligned address, so its fetch does not fault (R1211). -/
  delaySlotAligned : s.branch = true → Width.word.aligned s.pc = true

/-- The start of a tick at which a run is observed (R1340): at `stop`, no branch pending, slot0 empty. -/
def State.atStop (s : State) (stop : Word) : Bool :=
  s.pc == stop && !s.branch && decide (s.slot0.target = 0)

/-- The observation of a run within `fuel` ticks from the start of tick `k` (R1340): the first state at the stop; none
where the run is refused, cannot start, or exhausts its fuel first. -/
def Launch.observeFrom (p : Launch) (stop : Word) (fuel k : Nat) (s : State) : Option State :=
  match p.beforeTick k s with
  | none => none
  | some s' =>
    if s'.atStop stop then some s'
    else
      match fuel with
      | 0 => none
      | fuel' + 1 =>
        match step s' with
        | .next t => Launch.observeFrom p stop fuel' (k + 1) t
        | .fault _ => none
        | .refused _ => none

/-- The observation of a launch (R1340). -/
def Launch.observe (p : Launch) (stop : Word) (fuel : Nat) : Option State :=
  match p.start with
  | some s => p.observeFrom stop fuel 0 s
  | none => none

end Sys2Proof.Machine
end

