-- ==== Sys2Proof/Certificates/Slice0/Obligations.lean ====
section
/-!
DEFINITION. The statements for the provers, each from the numbered rules of spec/. First the words they are said in:
what a next state is after a direct write, a load, a branch, a store or an exception, each said field by field and
with what stays; then which instruction may change what.
-/

namespace Sys2Proof.Claims

open Sys2Proof.Machine

/-! ### Next states -/

/-- `t` is `s` after the direct write `x[d] <- v` (R13, R101, R410): `x[d]` holds `v` unless `d = 0`, where nothing is
written; a load to `d` pending in slot1 is overridden; nothing else changes. -/
def DirectWrite (s : State) (d : RegIdx) (v : Word) (t : State) : Prop :=
  (∀ r, t.reg r = if r = d ∧ r ≠ 0 then v else s.reg r) ∧
  t.slot1 = (if d ≠ 0 ∧ s.slot1.target = d then { s.slot1 with modified := true } else s.slot1) ∧
  t.directWritten = (if d ≠ 0 then some d else s.directWritten) ∧
  t = { s with regs := t.regs, slot1 := t.slot1, directWritten := t.directWritten } ∧
  ∀ a, t.readByte a = s.readByte a

/-- `t` is `s` after a load or MFC0 issued `DelayLoad(rt, v)` (R408): the load is in slot0, which stays empty for
`rt = 0`; no register changes; a read leaves at most a diagnostic event and an advanced draw counter (R225). -/
def Loaded (s : State) (rt : RegIdx) (v : Word) (t : State) : Prop :=
  t.slot0 = (if rt = 0 then ⟨0, 0#32, false, 0#32⟩ else ⟨rt, v, false, s.pc⟩) ∧
  (∀ r, t.reg r = s.reg r) ∧
  t = { s with slot0 := t.slot0, outputs := t.outputs, draws := t.draws } ∧
  ∀ a, t.readByte a = s.readByte a

/-- `t` is `s` after a branch or jump to `target` that is taken when `taken` holds (R1000). -/
def Branched (s : State) (taken : Bool) (target : Word) (t : State) : Prop :=
  t.branch = (taken || s.branch) ∧
  t.branchAddress = (if taken then target else s.branchAddress) ∧
  t = { s with branch := t.branch, branchAddress := t.branchAddress } ∧
  ∀ a, t.readByte a = s.readByte a

/-- `t` is `s` after a branch or jump that also links `pc + 8` in `x[d]` (R1002). -/
def Linked (s : State) (d : RegIdx) (taken : Bool) (target : Word) (t : State) : Prop :=
  ∃ u, DirectWrite s d (s.pc + 8#32) u ∧ Branched u taken target t

/-- `t` is `s` after one bus store of `v` at `addr` (R222, R902): byte `k` of `v` stands at the `k`-th stored address,
every other byte reads as before, and only memory, the DMA registers and the output streams can have changed. -/
def Stored (s : State) (addr : Word) (width : Width) (v : Word) (t : State) : Prop :=
  s.busWrite addr width v = .ok t ∧
  (∀ k a, (s.storedBytes addr width)[k]? = some a → t.readByte a = byteOfWord v k) ∧
  (∀ a, a ∉ s.storedBytes addr width → t.readByte a = s.readByte a) ∧
  t = { s with mem := t.mem, dma := t.dma, outputs := t.outputs }

/-- `t` is `s` after exception entry with ExcCode `code` and, for an address error, the offending address `bad` (R1210):
BADVADDR, CAUSE, EPC, SR, `pc` (the vector less 4, since the tick then adds 4), the pending branch; nothing else. -/
def Entered (s : State) (code : Word) (bad : Option Word) (t : State) : Prop :=
  t.cop0At 8 = bad.getD (s.cop0At 8) ∧
  t.cop0At 13 = (if s.branchDelay then ((s.cop0At 13 &&& ~~~ 0x0000007C#32) ||| (code <<< 2)) ||| 0x80000000#32
    else ((s.cop0At 13 &&& ~~~ 0x0000007C#32) ||| (code <<< 2)) &&& 0x7FFFFFFF#32) ∧
  t.cop0At 14 = (if s.branchDelay then s.pc - 4#32 else s.pc) ∧
  t.cop0At 12 = (s.cop0At 12 &&& ~~~ 0x0000003F#32) ||| ((s.cop0At 12 <<< 2) &&& 0x0000003F#32) ∧
  (∀ i : RegIdx, i ≠ 8 → i ≠ 12 → i ≠ 13 → i ≠ 14 → t.cop0At i = s.cop0At i) ∧
  t.pc = (if (s.cop0At 12).getLsbD 22 then 0xBFC00180#32 else 0x80000080#32) - 4#32 ∧
  t = { s with cop0 := t.cop0, pc := t.pc, branch := false, trapped := true } ∧
  ∀ a, t.readByte a = s.readByte a

/-- `t` is `s` after the instruction raised `e` and did nothing else: no register written, no load issued or overridden, no
byte of memory stored (R15, R1202). What entry itself writes is said by Entered. -/
def Raised (s : State) (e : Exc) (t : State) : Prop :=
  t = s.enterException e ∧ (∀ r, t.reg r = s.reg r) ∧ t.slot0 = s.slot0 ∧ t.slot1 = s.slot1 ∧
  ∀ a, t.readByte a = s.readByte a

/-! ### Which instruction may change what -/

/-- The general register an instruction writes directly (R103). -/
def directDest : Instr → Option RegIdx
  | .add rd _ _ | .addu rd _ _ | .sub rd _ _ | .subu rd _ _ | .slt rd _ _ | .sltu rd _ _ => some rd
  | .addi rt _ _ | .addiu rt _ _ | .slti rt _ _ | .sltiu rt _ _ => some rt
  | .and rd _ _ | .or rd _ _ | .xor rd _ _ | .nor rd _ _ => some rd
  | .andi rt _ _ | .ori rt _ _ | .xori rt _ _ | .lui rt _ => some rt
  | .sll rd _ _ | .srl rd _ _ | .sra rd _ _ | .sllv rd _ _ | .srlv rd _ _ | .srav rd _ _ => some rd
  | .mfhi rd | .mflo rd => some rd
  | .jal _ | .bltzal _ _ | .bgezal _ _ => some 31
  | .jalr rd _ => some rd
  | .mult _ _ | .multu _ _ | .div _ _ | .divu _ _ | .mthi _ | .mtlo _
  | .lb _ _ _ | .lbu _ _ _ | .lh _ _ _ | .lhu _ _ _ | .lw _ _ _ | .lwl _ _ _ | .lwr _ _ _
  | .sb _ _ _ | .sh _ _ _ | .sw _ _ _ | .swl _ _ _ | .swr _ _ _
  | .beq _ _ _ | .bne _ _ _ | .blez _ _ | .bgtz _ _ | .bltz _ _ | .bgez _ _ | .j _ | .jr _
  | .syscall _ | .brk _ | .mfc0 _ _ | .mtc0 _ _ | .rfe => none

/-- The instruction is a load or MFC0: it issues a `DelayLoad` (R103). -/
def isDelayedWriter : Instr → Bool
  | .lb _ _ _ | .lbu _ _ _ | .lh _ _ _ | .lhu _ _ _ | .lw _ _ _ | .lwl _ _ _ | .lwr _ _ _ | .mfc0 _ _ => true
  | _ => false

/-- The instruction writes `hi` (R104). -/
def writesHi : Instr → Bool
  | .mult _ _ | .multu _ _ | .div _ _ | .divu _ _ | .mthi _ => true
  | _ => false

/-- The instruction writes `lo` (R104). -/
def writesLo : Instr → Bool
  | .mult _ _ | .multu _ _ | .div _ _ | .divu _ _ | .mtlo _ => true
  | _ => false

/-- The instruction can raise an exception (R1203). -/
def mayRaise : Instr → Bool
  | .add _ _ _ | .addi _ _ _ | .sub _ _ _ | .lw _ _ _ | .lh _ _ _ | .lhu _ _ _ | .sw _ _ _ | .sh _ _ _
  | .syscall _ | .brk _ => true
  | _ => false

/-- The instruction is a branch or a jump (46_branch.md). -/
def isBranch : Instr → Bool
  | .beq _ _ _ | .bne _ _ _ | .blez _ _ | .bgtz _ _ | .bltz _ _ | .bgez _ _ | .bltzal _ _ | .bgezal _ _
  | .j _ | .jal _ | .jr _ | .jalr _ _ => true
  | _ => false

/-- The COP0 registers an instruction may write: MTC0 the one it names, RFE SR, an instruction that raises BADVADDR, SR,
CAUSE and EPC. -/
def mayWriteCop0 (i : Instr) (r : RegIdx) : Bool :=
  match i with
  | .mtc0 _ cr => r == cr
  | .rfe => r == 12
  | _ => mayRaise i && (r == 8 || r == 12 || r == 13 || r == 14)

/-- The address and the width of the bus store of a store instruction (R206, R900, R903). -/
def storeOf (i : Instr) (s : State) : Option (Word × Width) :=
  match i with
  | .sb _ rs imm => some (s.ea rs imm, .byte)
  | .sh _ rs imm => some (s.ea rs imm, .half)
  | .sw _ rs imm => some (s.ea rs imm, .word)
  | .swl _ rs imm => some (wordBase (s.ea rs imm), .word)
  | .swr _ rs imm => some (wordBase (s.ea rs imm), .word)
  | _ => none

/-- The instruction is a load of 44_load.md. -/
def isLoad : Instr → Bool
  | .lb _ _ _ | .lbu _ _ _ | .lh _ _ _ | .lhu _ _ _ | .lw _ _ _ | .lwl _ _ _ | .lwr _ _ _ => true
  | _ => false

/-- The bits of an instruction's word that hold its row's pattern or one of its operands; the others are ignored
(R302, R311). -/
def usedBits : Instr → Word
  | .add _ _ _ | .addu _ _ _ | .sub _ _ _ | .subu _ _ _ | .slt _ _ _ | .sltu _ _ _
  | .and _ _ _ | .or _ _ _ | .xor _ _ _ | .nor _ _ _
  | .sllv _ _ _ | .srlv _ _ _ | .srav _ _ _ => 0xFFFFF83F#32
  | .sll _ _ _ | .srl _ _ _ | .sra _ _ _ => 0xFC1FFFFF#32
  | .mult _ _ | .multu _ _ | .div _ _ | .divu _ _ => 0xFFFF003F#32
  | .mfhi _ | .mflo _ => 0xFC00F83F#32
  | .mthi _ | .mtlo _ | .jr _ => 0xFFE0003F#32
  | .jalr _ _ => 0xFFE0F83F#32
  | .lui _ _ => 0xFC1FFFFF#32
  | .blez _ _ | .bgtz _ _ => 0xFFE0FFFF#32
  | .mfc0 _ _ | .mtc0 _ _ => 0xFFFFF800#32
  | .rfe => 0xFE00003F#32
  | .addi _ _ _ | .addiu _ _ _ | .slti _ _ _ | .sltiu _ _ _ | .andi _ _ _ | .ori _ _ _ | .xori _ _ _
  | .lb _ _ _ | .lbu _ _ _ | .lh _ _ _ | .lhu _ _ _ | .lw _ _ _ | .lwl _ _ _ | .lwr _ _ _
  | .sb _ _ _ | .sh _ _ _ | .sw _ _ _ | .swl _ _ _ | .swr _ _ _
  | .beq _ _ _ | .bne _ _ _ | .bltz _ _ | .bgez _ _ | .bltzal _ _ | .bgezal _ _
  | .j _ | .jal _ | .syscall _ | .brk _ => 0xFFFFFFFF#32

/-! ### Memory -/

/-- The device behind a region that stores bytes (R211). -/
def deviceOf : Region → Option ByteDevice
  | .ram => some ram
  | .scratchpad => some scratchpad
  | .bios => some bios
  | .ioStub | .dma | .gpu | .unmapped => none

/-- Byte `k` of an access at address `addr` of device `d`, read from memory: `dev[(m + k) & (size - 1)]` (R210). -/
def byteAt (s : State) (d : ByteDevice) (addr : Word) (k : Nat) : Byte :=
  s.readByte (d.base + ((addr &&& 0x1FFFFFFF#32).toNat + k) % d.size)

/-- `Σ_{k<n} dev[(m + k) & (size - 1)] << 8k` (R202, R210). -/
def littleEndian (s : State) (d : ByteDevice) (addr : Word) (n : Nat) : Nat :=
  ((List.range n).map (fun k => (byteAt s d addr k).toNat * 2 ^ (8 * k))).sum

/-- The access meets a window of word registers, which answers words only (R233, R237). -/
def inWordWindow (addr : Word) : Bool :=
  match regionOf (maskAddress addr) with
  | .dma | .gpu => true
  | .ram | .scratchpad | .ioStub | .bios | .unmapped => false

/-- The two words of 64 bits. -/
def pair (h l : Word) : BitVec 64 := h ++ l

end Sys2Proof.Claims

section

open Sys2Proof Sys2Proof.Machine Sys2Proof.Claims

/-! ### Encoding -/

/-- Words the spec writes out, one or more for each family, decode to the instruction they stand for (the examples of
R500, R506, R600, R602, R604, R704, R707, R708, R812, R815, R911, R904, R1010, R1016, R1019, R1021, R1100, R1101, R1110,
R1111, R1122). -/
def Obligations.SpecWordsDecode : Prop :=
  decode 0x00221820#32 = .ok (.add 3 1 2) ∧ decode 0x2022FFFF#32 = .ok (.addi 2 1 0xFFFF#16) ∧
  decode 0x00220018#32 = .ok (.mult 1 2) ∧ decode 0x0022001A#32 = .ok (.div 1 2) ∧
  decode 0x00001810#32 = .ok (.mfhi 3) ∧ decode 0x30228001#32 = .ok (.andi 2 1 0x8001#16) ∧
  decode 0x3C028001#32 = .ok (.lui 2 0x8001#16) ∧ decode 0x00021900#32 = .ok (.sll 3 2 4) ∧
  decode 0x84220002#32 = .ok (.lh 2 1 2#16) ∧ decode 0x88220000#32 = .ok (.lwl 2 1 0#16) ∧
  decode 0xA4230001#32 = .ok (.sh 3 1 1#16) ∧ decode 0xA8230000#32 = .ok (.swl 3 1 0#16) ∧
  decode 0x10220002#32 = .ok (.beq 1 2 2#16) ∧ decode 0x04300002#32 = .ok (.bltzal 1 2#16) ∧
  decode 0x0C000404#32 = .ok (.jal 0x404#26) ∧ decode 0x00203809#32 = .ok (.jalr 7 1) ∧
  decode 0x0000000C#32 = .ok (.syscall 0#20) ∧ decode 0x0000000D#32 = .ok (.brk 0#20) ∧
  decode 0x40027800#32 = .ok (.mfc0 2 15) ∧ decode 0x40816000#32 = .ok (.mtc0 1 12) ∧
  decode 0x42000010#32 = .ok .rfe

/-- Decoding the word of a well-formed instruction gives the instruction back, every operand at every value its field
admits (R301, R302, R320 to R323). -/
def Obligations.DecodeOfEncode : Prop :=
  ∀ i : Instr, WellFormed i = true → decode (encode i) = .ok i

/-- Encoding what a word decodes to gives the word back but for the bits its instruction ignores, which are zero (R302,
R311); which bits those are, and that they are zero, is the model's (log entry 14). -/
def Obligations.EncodeOfDecode : Prop :=
  ∀ (w : Word) (i : Instr), decode w = .ok i → encode i = w &&& usedBits i

/-- A word decodes to an instruction exactly when it lies in a row of the opcode table, the instruction is of that row and
well-formed, and no word lies in two rows that differ (R320 to R323, R330; opcode_table.json). -/
def Obligations.DecodeFollowsTheTable : Prop :=
  (∀ (w : Word) (i : Instr), decode w = .ok i → WellFormed i = true ∧ (tableRow i).matches w = true) ∧
  (∀ (w : Word) (j : Instr), (tableRow j).matches w = true → ∃ i, decode w = .ok i ∧ tableRow i = tableRow j)

/-- A word in no row is rejected, a coprocessor word by that name, and the step that fetches a rejected word is refused; a
refused state has no tick, and no next state is refused (R147, R340, R342, R400; decisions D13, D14; log entry 1). -/
def Obligations.RefusedWordsAndStates : Prop :=
  (∀ w : Word, (∀ i, (tableRow i).matches w = false) → ∃ r, decode w = .error r) ∧
  (∀ w : Word, isCoprocessorOp (opOf w) = true → decode w = .error (.coprocessor (opOf w))) ∧
  (∀ (s s1 : State) (w : Word) (r : Reject), s.refused = false → s.pc &&& 3#32 = 0#32 →
    s.beginTick.busRead s.pc .word = .ok (w, s1) → decode w = .error r → step s = .refused (.undecodable r)) ∧
  (∀ s : State, s.refused = true → step s = .refused .alreadyRefused) ∧
  (∀ s t : State, step s = .next t → s.refused = false ∧ t.refused = false)

/-! ### The tick -/

/-- When the word a fetch reads decodes to an instruction, the step is that instruction's exec on the state the tick hands
it, followed by the end of the tick where exec answers a next state, and by nothing where it stops; the fetch reads the
four bytes at `pc`, little-endian, where `pc` is in RAM, scratchpad or BIOS ROM (R400, R404, R405; decision D43). -/
def Obligations.StepRunsTheInstructionAtPc : Prop :=
  (∀ (s s1 : State) (w : Word) (i : Instr), s.refused = false → s.pc &&& 3#32 = 0#32 →
    s.beginTick.busRead s.pc .word = .ok (w, s1) → decode w = .ok i →
    (∀ t, exec i s1 = .next t → step s = .next t.endTick) ∧
    (∀ q, exec i s1 = .refused q → step s = .refused q)) ∧
  (∀ (s : State) (d : ByteDevice) (i : Instr), s.refused = false → s.pc &&& 3#32 = 0#32 →
    deviceOf (regionOf (maskAddress s.pc)) = some d →
    decodeBytes [byteAt s d s.pc 0, byteAt s d s.pc 1, byteAt s d s.pc 2, byteAt s d s.pc 3] = .ok (i, []) →
    (∀ t, exec i s.beginTick = .next t → step s = .next t.endTick) ∧
    (∀ q, exec i s.beginTick = .refused q → step s = .refused q))

/-- Before the fetch a tick clears the transients, takes `branch_delay` from `branch`, moves slot0 to slot1, and emits the
TTY byte at the two call addresses (R401, R402, R403; decisions D1, D2, D38). -/
def Obligations.BeginTick : Prop :=
  ∀ s : State, s.beginTick = { s with
    directWritten := none
    trapped := false
    branchDelay := s.branch
    slot1 := s.slot0
    slot0 := ⟨0, 0#32, false, 0#32⟩
    outputs :=
      if (s.pc &&& 0x1FFFFFFF#32 = 0xA0#32 ∧ s.reg 9 = 0x3C#32) ∨ (s.pc &&& 0x1FFFFFFF#32 = 0xB0#32 ∧ s.reg 9 = 0x3D#32)
      then s.outputs ++ [.tty ((s.reg 4).setWidth 8)] else s.outputs }

/-- `Branch(target)` sets `branch` and `branch_address`; a tick that starts with a branch pending is a delay slot, and no
other tick is; at the end of a tick `pc` advances by 4, and after a delay slot that took no exception it becomes
`branch_address` and `branch` is cleared; in the tick of the branch itself `branch` survives (R411). -/
def Obligations.BranchResolution : Prop :=
  ∀ s : State,
    (∀ target, s.recordBranch target = { s with branch := true, branchAddress := target }) ∧
    (s.beginTick.branchDelay = s.branch ∧ s.beginTick.branch = s.branch) ∧
    (∀ (i : Instr) (t : State), exec i s = .next t → t.branchDelay = s.branchDelay) ∧
    (s.branchDelay = true → s.trapped = false → s.endTick.pc = s.branchAddress ∧ s.endTick.branch = false) ∧
    (s.branchDelay = false ∨ s.trapped = true → s.endTick.pc = s.pc + 4#32 ∧ s.endTick.branch = s.branch)

/-- The end of a tick commits the load in slot1 unless it is overridden, empties slot1, leaves `x[0]` zero, and changes no
other register; it keeps `hi`, `lo`, COP0 and slot0, and drops the transients (R413, R414, R145; decisions D1, D6); that it
drops them here too is the model's (log entry 10). -/
def Obligations.EndTickCommitsTheLoad : Prop :=
  ∀ s : State,
    (∀ r, s.endTick.reg r =
      if s.slot1.target = r ∧ r ≠ 0 ∧ s.slot1.modified = false then s.slot1.value else s.reg r) ∧
    s.endTick.regs[0] = 0#32 ∧ s.endTick.slot1 = ⟨0, 0#32, false, 0#32⟩ ∧ s.endTick.slot0 = s.slot0 ∧
    s.endTick.hi = s.hi ∧ s.endTick.lo = s.lo ∧ (∀ i, s.endTick.cop0At i = s.cop0At i) ∧
    s.endTick.directWritten = none ∧ s.endTick.trapped = false ∧ s.endTick.refused = s.refused

/-- A tick whose `pc` is not a multiple of 4 fetches nothing: it takes AdEL with bad address `pc` and ends at the vector
(R404, R1211, R1213; decisions D6, D10, D11). -/
def Obligations.MisalignedFetchTakesAdEL : Prop :=
  ∀ s : State, s.refused = false → s.pc &&& 3#32 ≠ 0#32 →
    ∃ e t, Entered s.beginTick 4#32 (some s.pc) e ∧ step s = .next t ∧ t = e.endTick ∧
      t.pc = (if (s.cop0At 12).getLsbD 22 then 0xBFC00180#32 else 0x80000080#32) ∧ t.branch = false

/-- What a step can do to `pc` and `branch`: outside a delay slot `pc` goes to `pc + 4` or a vector; a delay slot ends at
the recorded target, its own branch's where it is one, or at a vector, with no branch pending (R105, R411, R412, R420,
R1004). -/
def Obligations.PcAfterStep : Prop :=
  ∀ s t : State, step s = .next t →
    (s.branch = false →
      t.pc = s.pc + 4#32 ∨ (t.branch = false ∧ (t.pc = 0x80000080#32 ∨ t.pc = 0xBFC00180#32))) ∧
    (s.branch = true →
      t.branch = false ∧ (t.pc = t.branchAddress ∨ t.pc = 0x80000080#32 ∨ t.pc = 0xBFC00180#32))

/-- The load a tick finds in slot0 leaves the register file that its instruction reads as it was (only the merge of LWL and
LWR sees the pending value, R807), and is in the register at the end of the tick unless the instruction wrote that register
directly; where it did, and took no exception, its own value stands (R409, R410, R413, R803; decisions D2, D3, D6). -/
def Obligations.PendingLoadCommitsOneTickLater : Prop :=
  ∀ (s s1 e : State) (w : Word) (i : Instr), s.refused = false → s.pc &&& 3#32 = 0#32 →
    s.beginTick.busRead s.pc .word = .ok (w, s1) → decode w = .ok i → exec i s1 = .next e →
    s.slot0.target ≠ 0 → s.slot0.modified = false →
    (∀ r, s1.reg r = s.reg r) ∧
    ∃ t, step s = .next t ∧
      (directDest i ≠ some s.slot0.target ∨ e.trapped = true → t.reg s.slot0.target = s.slot0.value) ∧
      (directDest i = some s.slot0.target → e.trapped = false → t.reg s.slot0.target = e.reg s.slot0.target)

/-! ### Invariants and whole-machine rules -/

/-- The state after reset, with any BIOS image, meets the invariant (R1300; decisions D16, D17); that State.reset's own
image is all zero is the model's (log entry 5). -/
def Obligations.ResetMeetsTheInvariant : Prop :=
  State.reset.Inv ∧ ∀ image : List Byte, (State.resetWithBios image).Inv

/-- Every step from a state that meets the invariant ends in one that does: memory in canonical form and inside the
devices, `x[0]` zero (R101), slot1 empty and slot0 fresh (R121), the transients dropped (R145), the constant COP0
registers (R127, R132), the unwritten bits of CAUSE (R129), an aligned delay slot (R1003, R1211). -/
def Obligations.StepKeepsTheInvariant : Prop :=
  ∀ s t : State, s.Inv → step s = .next t → t.Inv

/-- BIOS ROM is the image the machine was launched with, and no step changes a byte of it; a launch without a full image
has no state to start from, no run and no observation (R136, R1302). -/
def Obligations.BiosIsTheImage : Prop :=
  bios = ⟨0x1FC00000, 0x80000⟩ ∧
  (∀ p : Launch, p.biosImage.length ≠ 524288 →
    p.start = none ∧ (∀ n, p.run n = none) ∧ ∀ stop fuel, p.observe stop fuel = none) ∧
  (∀ p : Launch, p.biosImage.length = 524288 →
    (∀ file, p.exeImage = some file → 0x800 + payloadBytes p.sizeUnit (le32 file 0x1C) ≤ file.length) →
    ∃ s, p.start = some s ∧ s = State.resetWithBios p.biosImage ∧ p.run 0 = some (.next s) ∧
    ∀ k b, p.biosImage[k]? = some b → s.readByte (0x1FC00000 + k) = b) ∧
  (∀ (s t : State) (a : Nat), step s = .next t → bios.holds a → t.readByte a = s.readByte a) ∧
  (∀ (s t : State) (addr v : Word) (width : Width) (a : Nat), s.busWrite addr width v = .ok t → bios.holds a →
    t.readByte a = s.readByte a)

/-- No step changes PRID, JUMPDEST or an unnamed COP0 register (R125, R127, R132; decisions D15, D16, D35). -/
def Obligations.ConstantCop0RegistersNeverChange : Prop :=
  ∀ (s t : State) (i : RegIdx), step s = .next t → constantZeroCop0 i = true ∨ i = 15 → t.cop0At i = s.cop0At i

/-- EPC is written only by exception entry, with the address of the excepting instruction or, in a delay slot, of the
branch; MTC0 cannot change it (R130). -/
def Obligations.EpcIsWrittenOnlyByEntry : Prop :=
  (∀ (i : Instr) (s t : State), exec i s = .next t →
    t.cop0At 14 = s.cop0At 14 ∨
    ∃ e, t = s.enterException e ∧ t.cop0At 14 = (if s.branchDelay then s.pc - 4#32 else s.pc)) ∧
  (∀ s t : State, step s = .next t →
    t.cop0At 14 = s.cop0At 14 ∨ t.cop0At 14 = (if s.branch then s.pc - 4#32 else s.pc)) ∧
  (∀ (rt : RegIdx) (s t : State), exec (.mtc0 rt 14) s = .next t → t.cop0At 14 = s.cop0At 14)

/-- While SR.IsC is set no bus store changes anything, and no instruction changes memory or a DMA register (R223; decision
D26). That a store the gate takes records no diagnostic event either is the model's choice (log entry 11). -/
def Obligations.IsolationStopsEveryStore : Prop :=
  ∀ s : State, (s.cop0At 12).getLsbD 16 = true →
    (∀ (addr v : Word) (width : Width), s.busWrite addr width v = .ok s) ∧
    (∀ (i : Instr) (t : State), exec i s = .next t → t.dma = s.dma ∧ ∀ a, t.readByte a = s.readByte a)

/-! ### The bus -/

/-- Two addresses that differ in bits 31:29 only reach the same location (R201, R246; decision D28), the KSEG0 and KSEG1
mirrors among them, for reads; and for stores where the isolation gate lets both pass. Where the read is a draw (I/O stub,
DMA hole, GPU window, narrow unmapped) the equal value is the model's draw at one counter (log entry 2), and in unmapped
space the equal next state rests on the event's masked address (log entry 11). -/
def Obligations.SegmentBitsAreMasked : Prop :=
  ∀ (s : State) (a b : Word) (width : Width), a &&& 0x1FFFFFFF#32 = b &&& 0x1FFFFFFF#32 →
    s.busRead a width = s.busRead b width ∧
    ∀ v, s.isolates a = s.isolates b → s.busWrite a width v = s.busWrite b width v

/-- The region table over masked addresses (R211; decision D18). -/
def Obligations.RegionTable : Prop :=
  ∀ m : Word, m.toNat < 0x20000000 →
    (regionOf m = .ram ↔ m.toNat < 0x00200000) ∧
    (regionOf m = .scratchpad ↔ 0x1F800000 ≤ m.toNat ∧ m.toNat < 0x1F801000) ∧
    (regionOf m = .ioStub ↔ 0x1F801000 ≤ m.toNat ∧ m.toNat < 0x1F801080) ∧
    (regionOf m = .dma ↔ 0x1F801080 ≤ m.toNat ∧ m.toNat < 0x1F801100) ∧
    (regionOf m = .gpu ↔ 0x1F801810 ≤ m.toNat ∧ m.toNat < 0x1F801818) ∧
    (regionOf m = .bios ↔ 0x1FC00000 ≤ m.toNat) ∧
    (regionOf m = .unmapped ↔ (0x00200000 ≤ m.toNat ∧ m.toNat < 0x1F800000) ∨
      (0x1F801100 ≤ m.toNat ∧ m.toNat < 0x1F801810) ∨ (0x1F801818 ≤ m.toNat ∧ m.toNat < 0x1FC00000))

/-- RAM: a read of n bytes composes them little-endian, a store writes them, each byte at `(m + k) & 0x1FFFFF`, and a
word stored at an aligned address is read back (R212). -/
def Obligations.RamReadsAndStores : Prop :=
  ∀ (s : State) (addr v : Word) (width : Width), (addr &&& 0x1FFFFFFF#32).toNat < 0x00200000 →
    (∃ u, s.busRead addr width = .ok (u, s) ∧ u.toNat = littleEndian s ⟨0, 0x200000⟩ addr width.bytes) ∧
    (s.isolates addr = false → ∃ t, s.busWrite addr width v = .ok t ∧ t = { s with mem := t.mem } ∧
      (∀ k, k < width.bytes → byteAt t ⟨0, 0x200000⟩ addr k = byteOfWord v k) ∧
      (∀ a, (∀ k, k < width.bytes → a ≠ ((addr &&& 0x1FFFFFFF#32).toNat + k) % 0x200000) →
        t.readByte a = s.readByte a) ∧
      (width = .word → addr &&& 3#32 = 0#32 → t.busRead addr .word = .ok (v, t)))

/-- Scratchpad: the same over a 1 KiB device, which appears four times in its window. BIOS ROM: reads index the image with
`m & 0x7FFFF`, so it repeats every 512 KiB, and a store has no effect (R213, R215, R216; decisions D19, D20, D25). -/
def Obligations.ScratchpadAndBios : Prop :=
  ∀ (s : State) (addr v : Word) (width : Width),
    (0x1F800000 ≤ (addr &&& 0x1FFFFFFF#32).toNat → (addr &&& 0x1FFFFFFF#32).toNat < 0x1F801000 →
      (∃ u, s.busRead addr width = .ok (u, s) ∧ u.toNat = littleEndian s ⟨0x1F800000, 0x400⟩ addr width.bytes) ∧
      s.busRead (addr ^^^ 0x400#32) width = s.busRead addr width ∧
      s.busRead (addr ^^^ 0x800#32) width = s.busRead addr width ∧
      (s.isolates addr = false → ∃ t, s.busWrite addr width v = .ok t ∧ t = { s with mem := t.mem } ∧
        (∀ k, k < width.bytes → byteAt t ⟨0x1F800000, 0x400⟩ addr k = byteOfWord v k) ∧
        ∀ a, (∀ k, k < width.bytes → a ≠ 0x1F800000 + ((addr &&& 0x1FFFFFFF#32).toNat + k) % 0x400) →
          t.readByte a = s.readByte a)) ∧
    (0x1FC00000 ≤ (addr &&& 0x1FFFFFFF#32).toNat →
      (∃ u, s.busRead addr width = .ok (u, s) ∧ u.toNat = littleEndian s ⟨0x1FC00000, 0x80000⟩ addr width.bytes) ∧
      s.busRead (addr ^^^ 0x80000#32) width = s.busRead addr width ∧
      s.busWrite addr width v = .ok s)

/-- After a word store of `v` at an aligned address of RAM or scratchpad, a byte read at `a + k` gives byte `k` of `v` and
a halfword read at `a + 2j` gives its halfword `j` (R203, R202). -/
def Obligations.NarrowReadsOfAStoredWord : Prop :=
  ∀ (s t : State) (a v : Word) (k : Nat), regionOf (maskAddress a) = .ram ∨ regionOf (maskAddress a) = .scratchpad →
    a &&& 3#32 = 0#32 → s.isolates a = false → s.busWrite a .word v = .ok t →
    (k < 4 → t.busRead (a + BitVec.ofNat 32 k) .byte = .ok ((v >>> (8 * k)) &&& 0xFF#32, t)) ∧
    (k < 2 → t.busRead (a + BitVec.ofNat 32 (2 * k)) .half = .ok ((v >>> (16 * k)) &&& 0xFFFF#32, t))

/-- An unmapped word reads 0xFFFFFFFF; a narrow unmapped read and every read of the I/O stub answer a free value; stores
to both change no state but a diagnostic event (R219, R220, R224; decisions D21, D22; log entries 2, 11). -/
def Obligations.UnmappedAndIoStub : Prop :=
  ∀ (s : State) (addr v : Word) (width : Width),
    (regionOf (maskAddress addr) = .unmapped →
      (∃ t, s.busRead addr .word = .ok (0xFFFFFFFF#32, t) ∧ t = { s with outputs := t.outputs }) ∧
      (∃ u t, s.busRead addr width = .ok (u, t) ∧ t = { s with outputs := t.outputs, draws := t.draws }) ∧
      (∃ t, s.busWrite addr width v = .ok t ∧ t = { s with outputs := t.outputs })) ∧
    (regionOf (maskAddress addr) = .ioStub →
      (∃ u, s.busRead addr width = .ok (u, { s with draws := s.draws + 1 })) ∧ s.busWrite addr width v = .ok s)

/-- A word read of a DMA register returns its value unchanged; a word store that passes the isolation gate writes it
unchanged, and has no other effect (R231). At an address that is no multiple of 4, which no access reaches, the register is
the model's choice (log entry 8). -/
def Obligations.DmaRegistersReadBack : Prop :=
  ∀ (s : State) (addr v : Word) (r : DmaReg), regionOf (maskAddress addr) = .dma → dmaRegAt (maskAddress addr) = some r →
    s.busRead addr .word = .ok (readDma s.dma r, s) ∧
    (s.isolates addr = false → ∃ t, s.busWrite addr .word v = .ok t ∧ t = { s with dma := t.dma } ∧
      (∀ q, readDma t.dma q = if q = r then v else readDma s.dma q) ∧ t.busRead addr .word = .ok (v, t))

/-- The map of the DMA window: MADR, BCR, CHCR, CHCR of channel `c` at 0x80 + 16 c, DPCR at 0xF0, DICR at 0xF4, and the
hole, where a word read answers a free value and a word store has no effect. The GPU window: a word store that passes the
gate emits GP0 or GP1 and changes no state; a word read answers a free value (R230, R232, R234 to R236; decisions D23,
D24; log entry 2). -/
def Obligations.DmaMapAndGpuWindow : Prop :=
  (∀ c : Channel,
    dmaRegAt (BitVec.ofNat 32 (0x1F801080 + 16 * c.val)) = some (.madr c) ∧
    dmaRegAt (BitVec.ofNat 32 (0x1F801084 + 16 * c.val)) = some (.bcr c) ∧
    dmaRegAt (BitVec.ofNat 32 (0x1F801088 + 16 * c.val)) = some (.chcr c) ∧
    dmaRegAt (BitVec.ofNat 32 (0x1F80108C + 16 * c.val)) = some (.chcr c)) ∧
  dmaRegAt 0x1F8010F0#32 = some .dpcr ∧ dmaRegAt 0x1F8010F4#32 = some .dicr ∧
  (∀ (s : State) (addr v : Word), maskAddress addr = 0x1F8010F8#32 ∨ maskAddress addr = 0x1F8010FC#32 →
    (∃ u, s.busRead addr .word = .ok (u, { s with draws := s.draws + 1 })) ∧ s.busWrite addr .word v = .ok s) ∧
  (∀ (s : State) (addr v : Word), maskAddress addr = 0x1F801810#32 ∨ maskAddress addr = 0x1F801814#32 →
    (∃ u, s.busRead addr .word = .ok (u, { s with draws := s.draws + 1 })) ∧
    (s.isolates addr = false → s.busWrite addr .word v = .ok { s with
      outputs := s.outputs ++ [if maskAddress addr = 0x1F801810#32 then .gp0 v else .gp1 v] }))

/-- A byte or halfword load in the DMA or GPU window is refused, and so is a byte or halfword store there that the
isolation gate does not take (R222, R233, R237; decisions D23, D24). -/
def Obligations.NarrowAccessesAreRefused : Prop :=
  ∀ (s : State) (rt rs : RegIdx) (imm : BitVec 16) (q : Refusal),
    (regionOf (maskAddress (s.ea rs imm)) = .dma ∧ q = .narrowDmaAccess) ∨
    (regionOf (maskAddress (s.ea rs imm)) = .gpu ∧ q = .narrowGpuAccess) →
    exec (.lb rt rs imm) s = .refused q ∧ exec (.lbu rt rs imm) s = .refused q ∧
    (s.ea rs imm &&& 1#32 = 0#32 → exec (.lh rt rs imm) s = .refused q ∧ exec (.lhu rt rs imm) s = .refused q) ∧
    (s.isolates (s.ea rs imm) = false → exec (.sb rt rs imm) s = .refused q ∧
      (s.ea rs imm &&& 1#32 = 0#32 → exec (.sh rt rs imm) s = .refused q))

/-- The pump at the end of a tick changes nothing while every CHCR holds 0, or holds no recognised pattern, and never
changes anything but the DMA registers, RAM and the output stream (R241; decision D36; log entry 4: that 0 is no
pattern). -/
def Obligations.PumpIsConfined : Prop :=
  ∀ s : State,
    ((∀ c : Channel, s.dma.chcr[c] = 0#32 ∨ Config.chcrPattern c s.dma.chcr[c] = false) → s.pump = s) ∧
    s.pump = { s with dma := s.pump.dma, mem := s.pump.mem, outputs := s.pump.outputs } ∧
    ∀ a, 0x200000 ≤ a → s.pump.readByte a = s.readByte a

/-! ### Integer add, subtract and compare -/

/-- ADDU and SUBU complete in every state and write the wrapped result; SLT and SLTU write 1 when less, signed and
unsigned, else 0; CAUSE and everything but the destination stays (R501, R503, R504, R505). -/
def Obligations.RegisterArithmetic : Prop :=
  ∀ (s : State) (rd rs rt : RegIdx),
    (∃ t, exec (.addu rd rs rt) s = .next t ∧ DirectWrite s rd (s.reg rs + s.reg rt) t) ∧
    (∃ t, exec (.subu rd rs rt) s = .next t ∧ DirectWrite s rd (s.reg rs - s.reg rt) t) ∧
    (∃ t, exec (.slt rd rs rt) s = .next t ∧
      DirectWrite s rd (if (s.reg rs).toInt < (s.reg rt).toInt then 1#32 else 0#32) t) ∧
    (∃ t, exec (.sltu rd rs rt) s = .next t ∧
      DirectWrite s rd (if (s.reg rs).toNat < (s.reg rt).toNat then 1#32 else 0#32) t)

/-- ADD and ADDI write the sum when its sign-bit test is clear; otherwise they raise Overflow, with no register written and no
pending load overridden, `rd = 0` included (R500, R506). What raising does is ExceptionEntry's. -/
def Obligations.AddAndAddi : Prop :=
  ∀ (s : State) (rd rs rt : RegIdx) (imm : BitVec 16),
    ((((s.reg rs ^^^ (s.reg rs + s.reg rt)) &&& (s.reg rt ^^^ (s.reg rs + s.reg rt))).getLsbD 31 = false →
      ∃ t, exec (.add rd rs rt) s = .next t ∧ DirectWrite s rd (s.reg rs + s.reg rt) t) ∧
     (((s.reg rs ^^^ (s.reg rs + s.reg rt)) &&& (s.reg rt ^^^ (s.reg rs + s.reg rt))).getLsbD 31 = true →
      ∃ t, exec (.add rd rs rt) s = .next t ∧ Raised s .overflow t)) ∧
    ((((s.reg rs ^^^ (s.reg rs + imm.signExtend 32)) &&& (imm.signExtend 32 ^^^ (s.reg rs + imm.signExtend 32))).getLsbD 31
        = false →
      ∃ t, exec (.addi rt rs imm) s = .next t ∧ DirectWrite s rt (s.reg rs + imm.signExtend 32) t) ∧
     (((s.reg rs ^^^ (s.reg rs + imm.signExtend 32)) &&& (imm.signExtend 32 ^^^ (s.reg rs + imm.signExtend 32))).getLsbD 31
        = true →
      ∃ t, exec (.addi rt rs imm) s = .next t ∧ Raised s .overflow t))

/-- ADD, ADDI and SUB by exact integers: they complete with the exact signed result exactly when it fits in 32 bits, and
take Overflow exactly when it does not (R500, R502, R506, R511; decision D31). -/
def Obligations.OverflowIsExact : Prop :=
  ∀ (s : State) (rd rs rt : RegIdx) (imm : BitVec 16),
    (if -2147483648 ≤ (s.reg rs).toInt + (s.reg rt).toInt ∧ (s.reg rs).toInt + (s.reg rt).toInt < 2147483648
     then ∃ v t, v.toInt = (s.reg rs).toInt + (s.reg rt).toInt ∧ exec (.add rd rs rt) s = .next t ∧ DirectWrite s rd v t
     else ∃ t, exec (.add rd rs rt) s = .next t ∧ Entered s 12#32 none t) ∧
    (if -2147483648 ≤ (s.reg rs).toInt - (s.reg rt).toInt ∧ (s.reg rs).toInt - (s.reg rt).toInt < 2147483648
     then ∃ v t, v.toInt = (s.reg rs).toInt - (s.reg rt).toInt ∧ exec (.sub rd rs rt) s = .next t ∧ DirectWrite s rd v t
     else ∃ t, exec (.sub rd rs rt) s = .next t ∧ Entered s 12#32 none t) ∧
    (if -2147483648 ≤ (s.reg rs).toInt + imm.toInt ∧ (s.reg rs).toInt + imm.toInt < 2147483648
     then ∃ v t, v.toInt = (s.reg rs).toInt + imm.toInt ∧ exec (.addi rt rs imm) s = .next t ∧ DirectWrite s rt v t
     else ∃ t, exec (.addi rt rs imm) s = .next t ∧ Entered s 12#32 none t)

/-- ADDIU, SLTI and SLTIU take their immediate sign-extended, SLTIU then unsigned (R507, R508, R509, R310; decision D47). -/
def Obligations.SignedImmediates : Prop :=
  ∀ (s : State) (rt rs : RegIdx) (imm : BitVec 16),
    (∃ t, exec (.addiu rt rs imm) s = .next t ∧ DirectWrite s rt (s.reg rs + imm.signExtend 32) t) ∧
    (∃ t, exec (.slti rt rs imm) s = .next t ∧
      DirectWrite s rt (if (s.reg rs).toInt < imm.toInt then 1#32 else 0#32) t) ∧
    (∃ t, exec (.sltiu rt rs imm) s = .next t ∧
      DirectWrite s rt (if (s.reg rs).toNat < (imm.signExtend 32).toNat then 1#32 else 0#32) t)

/-! ### Multiply, divide and HI/LO moves -/

/-- MULT and MULTU put the exact 64-bit product in `hi` and `lo`, and change nothing else (R600, R601, R610). -/
def Obligations.MultiplyIsExact : Prop :=
  ∀ (s : State) (rs rt : RegIdx),
    (∃ h l, exec (.mult rs rt) s = .next { s with hi := h, lo := l } ∧
      (pair h l).toInt = (s.reg rs).toInt * (s.reg rt).toInt) ∧
    (∃ h l, exec (.multu rs rt) s = .next { s with hi := h, lo := l } ∧
      (pair h l).toNat = (s.reg rs).toNat * (s.reg rt).toNat)

/-- DIVU: quotient and remainder, or `lo` all ones and `hi` the dividend for divisor 0; nothing else changes (R603). -/
def Obligations.DivideUnsigned : Prop :=
  ∀ (s : State) (rs rt : RegIdx), ∃ h l, exec (.divu rs rt) s = .next { s with hi := h, lo := l } ∧
    (s.reg rt = 0#32 → h = s.reg rs ∧ l = 0xFFFFFFFF#32) ∧
    (s.reg rt ≠ 0#32 → l.toNat = (s.reg rs).toNat / (s.reg rt).toNat ∧ h.toNat = (s.reg rs).toNat % (s.reg rt).toNat)

/-- DIV: the three special cases, and otherwise a quotient and remainder with `n = q * d + r`, `|r| < |d|` and `r` zero or
of the sign of `n`; nothing else changes (R602, R611, R612; decisions D44, D45). -/
def Obligations.DivideSigned : Prop :=
  ∀ (s : State) (rs rt : RegIdx), ∃ h l, exec (.div rs rt) s = .next { s with hi := h, lo := l } ∧
    (s.reg rt = 0#32 → h = s.reg rs ∧ l = if 0 ≤ (s.reg rs).toInt then 0xFFFFFFFF#32 else 0x00000001#32) ∧
    (s.reg rs = 0x80000000#32 → s.reg rt = 0xFFFFFFFF#32 → h = 0#32 ∧ l = 0x80000000#32) ∧
    (s.reg rt ≠ 0#32 → ¬ (s.reg rs = 0x80000000#32 ∧ s.reg rt = 0xFFFFFFFF#32) →
      (s.reg rs).toInt = l.toInt * (s.reg rt).toInt + h.toInt ∧
      |h.toInt| < |(s.reg rt).toInt| ∧ (h.toInt = 0 ∨ (h.toInt < 0 ↔ (s.reg rs).toInt < 0)))

/-- MFHI and MFLO copy `hi` and `lo` to a register; MTHI and MTLO copy a register to `hi` and `lo`, and change nothing else
(R604, R605, R606, R607). -/
def Obligations.HiLoMoves : Prop :=
  ∀ (s : State) (r : RegIdx),
    (∃ t, exec (.mfhi r) s = .next t ∧ DirectWrite s r s.hi t) ∧
    (∃ t, exec (.mflo r) s = .next t ∧ DirectWrite s r s.lo t) ∧
    exec (.mthi r) s = .next { s with hi := s.reg r } ∧
    exec (.mtlo r) s = .next { s with lo := s.reg r }

/-! ### Logic, LUI and shifts -/

/-- AND, OR, XOR and NOR, bit by bit (R700, R701, R702, R703). -/
def Obligations.LogicBitByBit : Prop :=
  ∀ (s : State) (rd rs rt : RegIdx),
    (∃ v t, exec (.and rd rs rt) s = .next t ∧ DirectWrite s rd v t ∧
      ∀ k, k < 32 → v.getLsbD k = ((s.reg rs).getLsbD k && (s.reg rt).getLsbD k)) ∧
    (∃ v t, exec (.or rd rs rt) s = .next t ∧ DirectWrite s rd v t ∧
      ∀ k, k < 32 → v.getLsbD k = ((s.reg rs).getLsbD k || (s.reg rt).getLsbD k)) ∧
    (∃ v t, exec (.xor rd rs rt) s = .next t ∧ DirectWrite s rd v t ∧
      ∀ k, k < 32 → v.getLsbD k = ((s.reg rs).getLsbD k ^^ (s.reg rt).getLsbD k)) ∧
    (∃ v t, exec (.nor rd rs rt) s = .next t ∧ DirectWrite s rd v t ∧
      ∀ k, k < 32 → v.getLsbD k = !((s.reg rs).getLsbD k || (s.reg rt).getLsbD k))

/-- ANDI, ORI and XORI take their immediate zero-extended; LUI writes it shifted left by 16 (R704, R705, R706, R707). -/
def Obligations.LogicImmediatesAndLui : Prop :=
  ∀ (s : State) (rt rs : RegIdx) (imm : BitVec 16),
    (∃ t, exec (.andi rt rs imm) s = .next t ∧ DirectWrite s rt (s.reg rs &&& imm.setWidth 32) t) ∧
    (∃ t, exec (.ori rt rs imm) s = .next t ∧ DirectWrite s rt (s.reg rs ||| imm.setWidth 32) t) ∧
    (∃ t, exec (.xori rt rs imm) s = .next t ∧ DirectWrite s rt (s.reg rs ^^^ imm.setWidth 32) t) ∧
    (∃ v t, exec (.lui rt imm) s = .next t ∧ DirectWrite s rt v t ∧ v.toNat = imm.toNat * 65536)

/-- SLL, SRL and SRA by the shift amount, as arithmetic on the value: times 2^sa, divided by 2^sa, and the signed value
divided by 2^sa rounding down (R708, R709, R712). -/
def Obligations.ShiftsByAmount : Prop :=
  ∀ (s : State) (rd rt : RegIdx) (sa : Nat), sa < 32 →
    (∃ v t, exec (.sll rd rt sa) s = .next t ∧ DirectWrite s rd v t ∧
      v.toNat = (s.reg rt).toNat * 2 ^ sa % 2 ^ 32) ∧
    (∃ v t, exec (.srl rd rt sa) s = .next t ∧ DirectWrite s rd v t ∧ v.toNat = (s.reg rt).toNat / 2 ^ sa) ∧
    (∃ v t, exec (.sra rd rt sa) s = .next t ∧ DirectWrite s rd v t ∧ v.toInt = (s.reg rt).toInt / 2 ^ sa)

/-- SLLV, SRLV and SRAV shift by the low five bits of `x[rs]`, so by its value modulo 32 (R713, R714, R715, R710; decision
D32). -/
def Obligations.ShiftsByRegister : Prop :=
  ∀ (s : State) (rd rt rs : RegIdx),
    (∃ v t, exec (.sllv rd rt rs) s = .next t ∧ DirectWrite s rd v t ∧
      v.toNat = (s.reg rt).toNat * 2 ^ ((s.reg rs).toNat % 32) % 2 ^ 32) ∧
    (∃ v t, exec (.srlv rd rt rs) s = .next t ∧ DirectWrite s rd v t ∧
      v.toNat = (s.reg rt).toNat / 2 ^ ((s.reg rs).toNat % 32)) ∧
    (∃ v t, exec (.srav rd rt rs) s = .next t ∧ DirectWrite s rd v t ∧
      v.toInt = (s.reg rt).toInt / 2 ^ ((s.reg rs).toNat % 32))

/-! ### Loads -/

/-- LB and LBU issue the byte at `ea`, sign- and zero-extended, at every `ea` outside the DMA and GPU windows, and never
fault (R810, R811). -/
def Obligations.LoadByte : Prop :=
  ∀ (s : State) (rt rs : RegIdx) (imm : BitVec 16),
    (regionOf (maskAddress (s.reg rs + imm.signExtend 32)) = .dma →
      exec (.lb rt rs imm) s = .refused .narrowDmaAccess ∧ exec (.lbu rt rs imm) s = .refused .narrowDmaAccess) ∧
    (regionOf (maskAddress (s.reg rs + imm.signExtend 32)) = .gpu →
      exec (.lb rt rs imm) s = .refused .narrowGpuAccess ∧ exec (.lbu rt rs imm) s = .refused .narrowGpuAccess) ∧
    (inWordWindow (s.reg rs + imm.signExtend 32) = false →
      ∃ (b : Byte) (u : State), s.busRead (s.reg rs + imm.signExtend 32) .byte = .ok (b.setWidth 32, u) ∧
        (∃ t, exec (.lb rt rs imm) s = .next t ∧ Loaded s rt (b.signExtend 32) t) ∧
        (∃ t, exec (.lbu rt rs imm) s = .next t ∧ Loaded s rt (b.setWidth 32) t))

/-- LH, LHU and LW: at an aligned `ea` they issue the halfword, sign- or zero-extended, or the word, LH and LHU outside the
DMA and GPU windows; at a misaligned `ea` they take AdEL, code 4, with bad address `ea`, before any bus access (R801,
R802, R812, R813, R814; decisions D27, D47). -/
def Obligations.LoadHalfAndWord : Prop :=
  ∀ (s : State) (rt rs : RegIdx) (imm : BitVec 16),
    ((s.reg rs + imm.signExtend 32) &&& 1#32 ≠ 0#32 →
      (∃ t, exec (.lh rt rs imm) s = .next t ∧ Entered s 4#32 (some (s.reg rs + imm.signExtend 32)) t) ∧
      (∃ t, exec (.lhu rt rs imm) s = .next t ∧ Entered s 4#32 (some (s.reg rs + imm.signExtend 32)) t)) ∧
    ((s.reg rs + imm.signExtend 32) &&& 3#32 ≠ 0#32 →
      ∃ t, exec (.lw rt rs imm) s = .next t ∧ Entered s 4#32 (some (s.reg rs + imm.signExtend 32)) t) ∧
    ((s.reg rs + imm.signExtend 32) &&& 1#32 = 0#32 → inWordWindow (s.reg rs + imm.signExtend 32) = false →
      ∃ (b : Half) (u : State), s.busRead (s.reg rs + imm.signExtend 32) .half = .ok (b.setWidth 32, u) ∧
        (∃ t, exec (.lh rt rs imm) s = .next t ∧ Loaded s rt (b.signExtend 32) t) ∧
        (∃ t, exec (.lhu rt rs imm) s = .next t ∧ Loaded s rt (b.setWidth 32) t)) ∧
    ((s.reg rs + imm.signExtend 32) &&& 3#32 = 0#32 →
      ∃ (v : Word) (u : State), s.busRead (s.reg rs + imm.signExtend 32) .word = .ok (v, u) ∧
        ∃ t, exec (.lw rt rs imm) s = .next t ∧ Loaded s rt v t)

/-- LWL and LWR complete at every `ea`: they read the aligned word once and merge it, by lane `ea[1:0]`, into the load
pending for the same register or, without one, into the register (R807, R815, R816; decision D4). -/
def Obligations.LoadLeftAndRight : Prop :=
  ∀ (s : State) (rt rs : RegIdx) (imm : BitVec 16),
    ∃ (w cur : Word) (u : State), s.busRead ((s.reg rs + imm.signExtend 32) &&& 0xFFFFFFFC#32) .word = .ok (w, u) ∧
      cur = (if s.slot1.target = rt ∧ rt ≠ 0 then s.slot1.value else s.reg rt) ∧
      (∃ v t, exec (.lwl rt rs imm) s = .next t ∧ Loaded s rt v t ∧
        ∀ j, j < 4 → byteOfWord v j =
          if 3 - (s.reg rs + imm.signExtend 32).toNat % 4 ≤ j
          then byteOfWord w (j - (3 - (s.reg rs + imm.signExtend 32).toNat % 4)) else byteOfWord cur j) ∧
      (∃ v t, exec (.lwr rt rs imm) s = .next t ∧ Loaded s rt v t ∧
        ∀ j, j < 4 → byteOfWord v j =
          if j < 4 - (s.reg rs + imm.signExtend 32).toNat % 4
          then byteOfWord w (j + (s.reg rs + imm.signExtend 32).toNat % 4) else byteOfWord cur j)

/-- An LWR and an LWL back to back, in either order, issue the word at any address of RAM, aligned or not (R807; decision
D4): the second runs on the state its own tick hands it, after the end of the first one's tick and the fetch, and then slot0
holds the four bytes, little-endian. Premises: no older load is about to commit to the base register, and no CHCR holds a
pattern the DMA pump acts on (log entry 4: 0 is none). -/
def Obligations.UnalignedLoadPair : Prop :=
  ∀ (s : State) (rt rs : RegIdx) (imm imm3 : BitVec 16) (p : Nat), rt ≠ 0 →
    (rs = 0 ∨ s.slot1.target ≠ rs ∨ s.slot1.modified = true) →
    (∀ c : Channel, s.dma.chcr[c] = 0#32 ∨ Config.chcrPattern c s.dma.chcr[c] = false) →
    maskAddress (s.reg rs + imm.signExtend 32) = BitVec.ofNat 32 p → p + 3 < 0x200000 →
    imm3.signExtend 32 = imm.signExtend 32 + 3#32 →
    (∃ t, exec (.lwr rt rs imm) s = .next t ∧
      ∀ w s1, t.endTick.beginTick.busRead t.endTick.pc .word = .ok (w, s1) →
        ∃ u, exec (.lwl rt rs imm3) s1 = .next u ∧ u.slot0.target = rt ∧ u.slot0.modified = false ∧
          u.slot0.value = wordOfBytes (s.readByte p) (s.readByte (p + 1)) (s.readByte (p + 2)) (s.readByte (p + 3))) ∧
    (∃ t, exec (.lwl rt rs imm3) s = .next t ∧
      ∀ w s1, t.endTick.beginTick.busRead t.endTick.pc .word = .ok (w, s1) →
        ∃ u, exec (.lwr rt rs imm) s1 = .next u ∧ u.slot0.target = rt ∧ u.slot0.modified = false ∧
          u.slot0.value = wordOfBytes (s.readByte p) (s.readByte (p + 1)) (s.readByte (p + 2)) (s.readByte (p + 3)))

/-! ### Stores -/

/-- SB, SH and SW store the low byte, halfword or word of `x[rt]` at `ea`, each byte at its address; SH and SW raise AdES
with bad address `ea`, and store nothing, where `ea` is misaligned (R902, R910, R911, R912). SB and SH complete outside
the DMA and GPU windows, or where the isolation gate takes the store. -/
def Obligations.Stores : Prop :=
  ∀ (s : State) (rt rs : RegIdx) (imm : BitVec 16),
    (inWordWindow (s.reg rs + imm.signExtend 32) = false ∨ s.isolates (s.reg rs + imm.signExtend 32) = true →
      ∃ t, exec (.sb rt rs imm) s = .next t ∧ Stored s (s.reg rs + imm.signExtend 32) .byte (s.reg rt) t) ∧
    ((s.reg rs + imm.signExtend 32) &&& 1#32 = 0#32 →
      inWordWindow (s.reg rs + imm.signExtend 32) = false ∨ s.isolates (s.reg rs + imm.signExtend 32) = true →
      ∃ t, exec (.sh rt rs imm) s = .next t ∧ Stored s (s.reg rs + imm.signExtend 32) .half (s.reg rt) t) ∧
    ((s.reg rs + imm.signExtend 32) &&& 3#32 = 0#32 →
      ∃ t, exec (.sw rt rs imm) s = .next t ∧ Stored s (s.reg rs + imm.signExtend 32) .word (s.reg rt) t) ∧
    ((s.reg rs + imm.signExtend 32) &&& 1#32 ≠ 0#32 →
      ∃ t, exec (.sh rt rs imm) s = .next t ∧ Raised s (.ades (s.reg rs + imm.signExtend 32)) t) ∧
    ((s.reg rs + imm.signExtend 32) &&& 3#32 ≠ 0#32 →
      ∃ t, exec (.sw rt rs imm) s = .next t ∧ Raised s (.ades (s.reg rs + imm.signExtend 32)) t)

/-- SWL and SWR complete at every `ea`: one read of the aligned word, then one store of it merged by lane `ea[1:0]` with
`x[rt]` (R903, R904, R905; decision D42). -/
def Obligations.StoreLeftAndRight : Prop :=
  ∀ (s : State) (rt rs : RegIdx) (imm : BitVec 16),
    ∃ (m : Word) (u : State), s.busRead ((s.reg rs + imm.signExtend 32) &&& 0xFFFFFFFC#32) .word = .ok (m, u) ∧
      (∃ v t, exec (.swl rt rs imm) s = .next t ∧
        Stored u ((s.reg rs + imm.signExtend 32) &&& 0xFFFFFFFC#32) .word v t ∧
        ∀ j, j < 4 → byteOfWord v j =
          if j ≤ (s.reg rs + imm.signExtend 32).toNat % 4
          then byteOfWord (s.reg rt) (3 - (s.reg rs + imm.signExtend 32).toNat % 4 + j) else byteOfWord m j) ∧
      (∃ v t, exec (.swr rt rs imm) s = .next t ∧
        Stored u ((s.reg rs + imm.signExtend 32) &&& 0xFFFFFFFC#32) .word v t ∧
        ∀ j, j < 4 → byteOfWord v j =
          if (s.reg rs + imm.signExtend 32).toNat % 4 ≤ j
          then byteOfWord (s.reg rt) (j - (s.reg rs + imm.signExtend 32).toNat % 4) else byteOfWord m j)

/-! ### Branches and jumps -/

/-- BEQ, BNE, BLTZ and BGEZ record their target exactly when their condition holds (R1010, R1011, R1014, R1015). -/
def Obligations.ConditionalBranches : Prop :=
  ∀ (s : State) (rs rt : RegIdx) (imm : BitVec 16),
    (∃ t, exec (.beq rs rt imm) s = .next t ∧
      Branched s (decide (s.reg rs = s.reg rt)) ((imm.signExtend 32 <<< 2) + (s.pc + 4#32)) t) ∧
    (∃ t, exec (.bne rs rt imm) s = .next t ∧
      Branched s (decide (s.reg rs ≠ s.reg rt)) ((imm.signExtend 32 <<< 2) + (s.pc + 4#32)) t) ∧
    (∃ t, exec (.bltz rs imm) s = .next t ∧
      Branched s (decide ((s.reg rs).toInt < 0)) ((imm.signExtend 32 <<< 2) + (s.pc + 4#32)) t) ∧
    (∃ t, exec (.bgez rs imm) s = .next t ∧
      Branched s (decide (0 ≤ (s.reg rs).toInt)) ((imm.signExtend 32 <<< 2) + (s.pc + 4#32)) t)

/-- J and JAL jump inside the region of the delay slot, JR to `x[rs]` whatever its alignment; JAL links `pc + 8` in
`x[31]` (R1018, R1019, R1020). -/
def Obligations.Jumps : Prop :=
  ∀ (s : State) (rs : RegIdx) (target : BitVec 26),
    (∃ t, exec (.j target) s = .next t ∧
      Branched s true (((s.pc + 4#32) &&& 0xF0000000#32) ||| (target.setWidth 32 <<< 2)) t) ∧
    (∃ t, exec (.jal target) s = .next t ∧
      Linked s 31 true (((s.pc + 4#32) &&& 0xF0000000#32) ||| (target.setWidth 32 <<< 2)) t) ∧
    (∃ t, exec (.jr rs) s = .next t ∧ Branched s true (s.reg rs) t)

/-- BLEZ and BGTZ record their target exactly when their condition holds. BLTZAL and BGEZAL link in `x[31]` whether taken
or not, JALR in `x[rd]` or nowhere for `rd = 0`; condition and target are read before the link is written (R1002, R1012,
R1013, R1016, R1017, R1021; decisions D29, D30). -/
def Obligations.ZeroBranchesAndLinks : Prop :=
  ∀ (s : State) (rd rs : RegIdx) (imm : BitVec 16),
    (∃ t, exec (.blez rs imm) s = .next t ∧
      Branched s (decide ((s.reg rs).toInt ≤ 0)) ((imm.signExtend 32 <<< 2) + (s.pc + 4#32)) t) ∧
    (∃ t, exec (.bgtz rs imm) s = .next t ∧
      Branched s (decide (0 < (s.reg rs).toInt)) ((imm.signExtend 32 <<< 2) + (s.pc + 4#32)) t) ∧
    (∃ t, exec (.bltzal rs imm) s = .next t ∧
      Linked s 31 (decide ((s.reg rs).toInt < 0)) ((imm.signExtend 32 <<< 2) + (s.pc + 4#32)) t) ∧
    (∃ t, exec (.bgezal rs imm) s = .next t ∧
      Linked s 31 (decide (0 ≤ (s.reg rs).toInt)) ((imm.signExtend 32 <<< 2) + (s.pc + 4#32)) t) ∧
    (∃ t, exec (.jalr rd rs) s = .next t ∧ Linked s rd true (s.reg rs) t)

/-! ### Exceptions, system instructions and COP0 -/

/-- Exception entry, for every kind: BADVADDR only for an address error, CAUSE's code and BD with every other bit kept,
EPC, SR's mode stack pushed, the vector, the pending branch dropped; no general register, `hi`, `lo`, load slot or byte of
memory (R1200, R1210 to R1216; decisions D6 to D11, D49, D50). -/
def Obligations.ExceptionEntry : Prop :=
  ∀ (s : State) (bad : Word),
    Entered s 4#32 (some bad) (s.enterException (.adel bad)) ∧ Entered s 5#32 (some bad) (s.enterException (.ades bad)) ∧
    Entered s 8#32 none (s.enterException .syscall) ∧ Entered s 9#32 none (s.enterException .breakpoint) ∧
    Entered s 12#32 none (s.enterException .overflow)

/-- SYSCALL takes Syscall, code 8, and BREAK Breakpoint, code 9, whatever their code field; the tick ends at the vector
with no branch pending (R1100, R1101, R1210; decisions D6 to D8, D10, D11, D29). -/
def Obligations.SyscallAndBreak : Prop :=
  ∀ (s : State) (code : BitVec 20),
    (∃ t, exec (.syscall code) s = .next t ∧ Entered s 8#32 none t ∧ t.endTick.branch = false ∧
      t.endTick.pc = if (s.cop0At 12).getLsbD 22 then 0xBFC00180#32 else 0x80000080#32) ∧
    (∃ t, exec (.brk code) s = .next t ∧ Entered s 9#32 none t ∧ t.endTick.branch = false ∧
      t.endTick.pc = if (s.cop0At 12).getLsbD 22 then 0xBFC00180#32 else 0x80000080#32)

/-- `Cop0Write(i, v)` changes the bits of the write mask and no others, so nothing where the mask is 0; no other register
and nothing else changes; hardware writes are not masked (R126). -/
def Obligations.Cop0WriteIsMasked : Prop :=
  ∀ (s : State) (i j : RegIdx) (v : Word),
    (s.writeCop0 i v).cop0At j =
      (if j = i then (s.cop0At i &&& ~~~ (writeMask i)) ||| (v &&& writeMask i) else s.cop0At j) ∧
    (writeMask i = 0#32 → s.writeCop0 i v = s) ∧
    s.writeCop0 i v = { s with cop0 := (s.writeCop0 i v).cop0 } ∧
    (s.setCop0 i v).cop0At j = (if j = i then v else s.cop0At j)

/-- MFC0 issues the COP0 register as a load; MTC0 writes the writable bits at once: all of BPC, BDA, DCIC, BDAM, BPCM and
SR, bits 9:8 of CAUSE, nothing else (R125, R1110, R1111; decisions D5, D15, D34). -/
def Obligations.Cop0Moves : Prop :=
  ∀ (s : State) (rt cr : RegIdx),
    (∃ t, exec (.mfc0 rt cr) s = .next t ∧ Loaded s rt (s.cop0At cr) t ∧ t.outputs = s.outputs ∧ t.draws = s.draws) ∧
    (∃ t, exec (.mtc0 rt cr) s = .next t ∧ t = { s with cop0 := t.cop0 } ∧
      (∀ i, i ≠ cr → t.cop0At i = s.cop0At i) ∧
      t.cop0At cr =
        if cr = 3 ∨ cr = 5 ∨ cr = 7 ∨ cr = 9 ∨ cr = 11 ∨ cr = 12 then s.reg rt
        else if cr = 13 then (s.cop0At 13 &&& 0xFFFFFCFF#32) ||| (s.reg rt &&& 0x00000300#32)
        else s.cop0At cr)

/-- RFE pops SR's mode stack: bits 3:0 become bits 5:2, every other bit of SR and everything else, `pc` included, stays
(R1122; decision D33); it undoes the push of an exception entry but for the oldest pair (R1214; decision D8). -/
def Obligations.ReturnFromException : Prop :=
  ∀ s : State,
    (∃ t, exec .rfe s = .next t ∧ t = { s with cop0 := t.cop0 } ∧
      (∀ i : RegIdx, i ≠ 12 → t.cop0At i = s.cop0At i) ∧
      (∀ k, k < 4 → (t.cop0At 12).getLsbD k = (s.cop0At 12).getLsbD (k + 2)) ∧
      (∀ k, 4 ≤ k → (t.cop0At 12).getLsbD k = (s.cop0At 12).getLsbD k)) ∧
    ∀ (e : Exc) (k : Nat), k < 4 →
      ((s.enterException e).popModeStack.cop0At 12).getLsbD k = (s.cop0At 12).getLsbD k

/-! ### Frames -/

/-- What exec leaves of the general registers, `hi`, `lo` and the load slots: only the direct writers change a register,
their own, and override a load; only loads and MFC0 fill slot0; only multiply, divide, MTHI and MTLO change `hi` or `lo`;
an exception changes none of them (R103, R104, R1202; decision D5). -/
def Obligations.FrameRegisters : Prop :=
  ∀ (i : Instr) (s t : State), exec i s = .next t →
    (∀ r, directDest i ≠ some r → t.reg r = s.reg r) ∧
    (isDelayedWriter i = false → t.slot0 = s.slot0) ∧
    (directDest i ≠ some s.slot1.target → t.slot1 = s.slot1) ∧
    (writesHi i = false → t.hi = s.hi) ∧ (writesLo i = false → t.lo = s.lo)

/-- What exec leaves of the control state: `pc` unless it raises; the branch state unless it is a branch or raises; every
COP0 register but those the instruction names, and on raising BADVADDR, SR, CAUSE and EPC; `branch_delay` and the refused
mark always (R105, R126, R411, R1203, R1210). -/
def Obligations.FrameControl : Prop :=
  ∀ (i : Instr) (s t : State), exec i s = .next t →
    (mayRaise i = false → t.pc = s.pc ∧ t.trapped = s.trapped) ∧
    (mayRaise i = false → isBranch i = false → t.branch = s.branch) ∧
    (isBranch i = false → t.branchAddress = s.branchAddress) ∧
    (∀ r, mayWriteCop0 i r = false → t.cop0At r = s.cop0At r) ∧
    t.branchDelay = s.branchDelay ∧ t.refused = s.refused

/-- What exec leaves of memory and the devices: every byte outside the bytes its bus store writes; the DMA registers unless
it stores; the output streams and the draw counter unless it loads or stores (R225, R900, R1000). -/
def Obligations.FrameMemory : Prop :=
  ∀ (i : Instr) (s t : State), exec i s = .next t →
    (∀ addr width, storeOf i s = some (addr, width) →
      ∀ a, a ∉ s.storedBytes addr width → t.readByte a = s.readByte a) ∧
    (storeOf i s = none → t.dma = s.dma ∧ ∀ a, t.readByte a = s.readByte a) ∧
    (storeOf i s = none → isLoad i = false → t.outputs = s.outputs ∧ t.draws = s.draws)

/-! ### Reset and the side-load -/

/-- The state after reset (R1300, R1301; decisions D16, D17), register by register; most values are the spec's own choice
(log entry 7). -/
def Obligations.ResetState : Prop :=
  ∀ image : List Byte, let s := State.resetWithBios image
    (∀ r, s.reg r = 0#32) ∧ s.hi = 0#32 ∧ s.lo = 0#32 ∧ s.pc = 0xBFC00000#32 ∧ s.branch = false ∧
    s.branchDelay = false ∧ s.branchAddress = 0#32 ∧ s.slot0 = ⟨0, 0#32, false, 0#32⟩ ∧ s.slot1 = ⟨0, 0#32, false, 0#32⟩ ∧
    (∀ i, s.cop0At i = if i = 15 then 2#32 else 0#32) ∧
    (∀ r, readDma s.dma r = if r = .dpcr then 0x07654321#32 else 0#32) ∧
    s.refused = false ∧ s.outputs = [] ∧
    ∀ a, ram.holds a ∨ scratchpad.holds a → s.readByte a = 0#8

/-- The executable side-load, its header words little-endian and its payload of `size * 4` or `size` bytes by the launch's
unit: none for a file that is too short; otherwise `pc`, `x[28]`, and `x[29]` and `x[30]` unless
the header's stack pointer is 0, the payload in RAM, and no branch or load pending; a payload of at most 2 MiB stands byte
by byte where the header says, and no other byte changes (R1306; decision D37; log entry 9). -/
def Obligations.SideLoad : Prop :=
  ∀ (s : State) (unit : SizeUnit) (file : List Byte) (n : Nat),
    n = (if unit = .words then (le32 file 0x1C * 4#32).toNat else (le32 file 0x1C).toNat) →
    (∀ o b0 b1 b2 b3, file[o]? = some b0 → file[o + 1]? = some b1 → file[o + 2]? = some b2 → file[o + 3]? = some b3 →
      (le32 file o).toNat = b0.toNat + 0x100 * b1.toNat + 0x10000 * b2.toNat + 0x1000000 * b3.toNat) ∧
    (file.length < 0x800 + n → s.sideLoad unit file = none) ∧
    (0x800 + n ≤ file.length → ∃ t, s.sideLoad unit file = some t ∧
      t = { s with mem := t.mem, regs := t.regs, pc := le32 file 0x10, branch := false,
                   slot0 := ⟨0, 0#32, false, 0#32⟩, slot1 := ⟨0, 0#32, false, 0#32⟩ } ∧
      t.reg 28 = le32 file 0x14 ∧
      t.reg 29 = (if le32 file 0x30 = 0#32 then s.reg 29 else le32 file 0x30) ∧
      t.reg 30 = (if le32 file 0x30 = 0#32 then s.reg 30 else le32 file 0x30) ∧
      (∀ r : RegIdx, r ≠ 28 → r ≠ 29 → r ≠ 30 → t.reg r = s.reg r) ∧
      (n ≤ 0x200000 → ∀ k b, k < n → file[0x800 + k]? = some b →
        t.readByte (((le32 file 0x18).toNat + k) % 0x200000) = b) ∧
      ∀ a, (∀ k, k < n → a ≠ ((le32 file 0x18).toNat + k) % 0x200000) → t.readByte a = s.readByte a)

/-- A launch with an executable: a short file is a fatal startup error, so there is no start state, no run and no observation,
whatever tick it was to be applied before; otherwise there is a start state and a run of every length, and the side-load is
made before tick EXE_AT and no other (R1221, R1306; decision D37; log entry 9 for the size). -/
def Obligations.LaunchWithAnExecutable : Prop :=
  ∀ (p : Launch) (file : List Byte) (n : Nat), p.exeImage = some file →
    n = (if p.sizeUnit = .words then (le32 file 0x1C * 4#32).toNat else (le32 file 0x1C).toNat) →
    (file.length < 0x800 + n →
      p.start = none ∧ (∀ k, p.run k = none) ∧ ∀ stop fuel, p.observe stop fuel = none) ∧
    (0x800 + n ≤ file.length → p.biosImage.length = 524288 →
      p.start = some (State.resetWithBios p.biosImage) ∧ (∀ k, ∃ r, p.run k = some r) ∧
      ∀ k s, p.beforeTick k s = if k = p.exeAt then s.sideLoad p.sizeUnit file else some s)

end
end

