-- ==== Sys2Proof/Laws/Memory.lean ====
section
/-!
SUPPORT. Memory: reading after writing, and every memory operation keeps the canonical form and the device bounds.
The reading laws hold of any list, canonical or not.
-/

namespace Sys2Proof.Machine

/-! ### Reading after writing -/

theorem Memory.read_cons (c : Host.Cell) (m : Memory) (x : Nat) :
    Memory.read (c :: m) x = if c.1 = x then c.2 else m.read x := rfl

theorem Memory.read_erase (m : Memory) (a x : Nat) :
    (m.erase a).read x = if x = a then Memory.unlisted else m.read x := by
  induction m with
  | nil => simp [Memory.erase, Memory.read]
  | cons c rest ih =>
    unfold Memory.erase at ih ⊢
    rw [List.filter_cons, Memory.read_cons]
    by_cases hc : c.1 = a
    · subst hc
      simp only [bne_self_eq_false, Bool.false_eq_true, if_false, ih]
      by_cases hx : x = c.1
      · simp [hx]
      · rw [if_neg hx, if_neg (Ne.symm hx), if_neg hx]
    · rw [if_pos (by simpa using hc), Memory.read_cons, ih]
      by_cases hx : c.1 = x
      · subst hx; simp [hc]
      · simp [hx]

theorem Memory.read_insertCell (m : Memory) (a : Nat) (b : Byte) (h : m.read a = Memory.unlisted ∧ ∀ c ∈ m, c.1 ≠ a)
    (x : Nat) : (m.insertCell a b).read x = if x = a then b else m.read x := by
  induction m with
  | nil =>
    simp only [Memory.insertCell, Memory.read, eq_comm]
  | cons c rest ih =>
    have hc : c.1 ≠ a := h.2 c (List.mem_cons_self ..)
    unfold Memory.insertCell
    split
    · rw [Memory.read_cons]; simp only [eq_comm]
    · rw [Memory.read_cons, Memory.read_cons, ih ⟨by have := h.1; rwa [Memory.read_cons, if_neg hc] at this,
        fun d hd => h.2 d (List.mem_cons_of_mem _ hd)⟩]
      by_cases hx : c.1 = x
      · subst hx; simp [hc]
      · simp [hx]

/-- A byte written is the byte read back, and every other address reads as before. -/
theorem Memory.read_write (m : Memory) (a : Nat) (b : Byte) (x : Nat) :
    (m.write a b).read x = if x = a then b else m.read x := by
  unfold Memory.write
  split
  · next hb => rw [Memory.read_erase, hb]
  · rw [Memory.read_insertCell]
    · by_cases hx : x = a
      · simp [hx]
      · simp [hx, Memory.read_erase]
    · refine ⟨by simp [Memory.read_erase], fun c hc => ?_⟩
      have := List.mem_filter.mp hc
      simpa using this.2

/-- An address outside the cells written reads as before. -/
theorem Memory.read_writeAll_other (cells : List Host.Cell) (x : Nat) (h : ∀ c ∈ cells, c.1 ≠ x) (m : Memory) :
    (m.writeAll cells).read x = m.read x := by
  induction cells generalizing m with
  | nil => rfl
  | cons c rest ih =>
    unfold Memory.writeAll
    rw [ih (fun d hd => h d (List.mem_cons_of_mem _ hd)), Memory.read_write,
      if_neg (Ne.symm (h c (List.mem_cons_self ..)))]

/-! ### The canonical form -/

theorem Memory.wf_erase {m : Memory} (h : m.wf) (a : Nat) : (m.erase a).wf :=
  ⟨h.1.filter _, fun c hc => h.2 c (List.mem_of_mem_filter hc)⟩

theorem Memory.mem_insertCell {m : Memory} {a : Nat} {b : Byte} {c : Host.Cell} (h : c ∈ m.insertCell a b) :
    c = (a, b) ∨ c ∈ m := by
  induction m with
  | nil => simpa [Memory.insertCell] using h
  | cons d rest ih =>
    unfold Memory.insertCell at h
    split at h
    · simpa using h
    · rcases List.mem_cons.mp h with h | h
      · exact .inr (h ▸ List.mem_cons_self ..)
      · exact (ih h).imp id (List.mem_cons_of_mem _)

theorem Memory.wf_insertCell {m : Memory} (h : m.wf) {a : Nat} {b : Byte} (hb : b ≠ Memory.unlisted)
    (ha : ∀ c ∈ m, c.1 ≠ a) : (m.insertCell a b).wf := by
  refine ⟨?_, fun c hc => ?_⟩
  · have h1 := h.1
    clear h
    induction m with
    | nil => simp [Memory.insertCell]
    | cons d rest ih =>
      rw [List.pairwise_cons] at h1
      unfold Memory.insertCell
      split
      · next hlt =>
        refine List.pairwise_cons.mpr ⟨fun c hc => ?_, List.pairwise_cons.mpr h1⟩
        rcases List.mem_cons.mp hc with rfl | hc
        · exact hlt
        · exact hlt.trans (h1.1 c hc)
      · next hge =>
        refine List.pairwise_cons.mpr ⟨fun c hc => ?_, ih (fun c hc => ha c (List.mem_cons_of_mem _ hc)) h1.2⟩
        rcases Memory.mem_insertCell hc with rfl | hc
        · exact lt_of_le_of_ne (Nat.le_of_not_lt hge) (ha d (List.mem_cons_self ..))
        · exact h1.1 c hc
  · rcases Memory.mem_insertCell hc with rfl | hc
    · exact hb
    · exact h.2 c hc

theorem Memory.wf_write {m : Memory} (h : m.wf) (a : Nat) (b : Byte) : (m.write a b).wf := by
  unfold Memory.write
  split
  · exact Memory.wf_erase h a
  · next hb =>
    refine Memory.wf_insertCell (Memory.wf_erase h a) hb (fun c hc => ?_)
    simpa using (List.mem_filter.mp hc).2

theorem Memory.wf_writeAll (cells : List Host.Cell) {m : Memory} (h : m.wf) : (m.writeAll cells).wf := by
  induction cells generalizing m with
  | nil => exact h
  | cons c rest ih => exact ih (Memory.wf_write h c.1 c.2)

/-! ### The device bounds -/

theorem Memory.mem_write {m : Memory} {a : Nat} {b : Byte} {c : Host.Cell} (h : c ∈ m.write a b) :
    c = (a, b) ∨ c ∈ m := by
  unfold Memory.write at h
  split at h
  · exact .inr (List.mem_of_mem_filter h)
  · exact (Memory.mem_insertCell h).imp id List.mem_of_mem_filter

theorem Memory.located_write {m : Memory} (h : m.located) {a : Nat} (b : Byte)
    (ha : ram.holds a ∨ scratchpad.holds a ∨ bios.holds a) : (m.write a b).located := by
  intro c hc
  rcases Memory.mem_write hc with rfl | hc
  · exact ha
  · exact h c hc

theorem Memory.located_writeAll (cells : List Host.Cell) {m : Memory} (h : m.located)
    (hc : ∀ c ∈ cells, ram.holds c.1 ∨ scratchpad.holds c.1 ∨ bios.holds c.1) : (m.writeAll cells).located := by
  induction cells generalizing m with
  | nil => exact h
  | cons c rest ih =>
    exact ih (Memory.located_write h c.2 (hc c (List.mem_cons_self ..)))
      (fun d hd => hc d (List.mem_cons_of_mem _ hd))

/-- Every byte of an access lies in its device (R210). -/
theorem ByteDevice.holds_cell {d : ByteDevice} (hd : 0 < d.size) (m k : Nat) : d.holds (d.cell m k) :=
  ⟨Nat.le_add_right _ _, Nat.add_lt_add_left (Nat.mod_lt _ hd) _⟩

theorem mem_storeCells {d : ByteDevice} {m : Word} {width : Width} {v : Word} {c : Host.Cell} :
    c ∈ storeCells d m width v ↔ ∃ k, k < width.bytes ∧ c = (d.cell m.toNat k, byteOfWord v k) := by
  simp [storeCells, eq_comm]

theorem wf_writeDevice {mem : Memory} (h : mem.wf) (d : ByteDevice) (m : Word) (width : Width) (v : Word) :
    (writeDevice mem d m width v).wf := Memory.wf_writeAll _ h

theorem located_writeDevice {mem : Memory} (h : mem.located) {d : ByteDevice} (m : Word) (width : Width) (v : Word)
    (hd : ∀ k, ram.holds (d.cell m.toNat k) ∨ scratchpad.holds (d.cell m.toNat k) ∨ bios.holds (d.cell m.toNat k)) :
    (writeDevice mem d m width v).located := by
  refine Memory.located_writeAll _ h (fun c hc => ?_)
  obtain ⟨k, -, rfl⟩ := mem_storeCells.mp hc
  exact hd k

theorem ramPart_wf {m : Memory} (h : m.wf) : m.ramPart.wf :=
  ⟨h.1.filter _, fun c hc => h.2 c (List.mem_of_mem_filter hc)⟩

end Sys2Proof.Machine
end

