-- ==== Sys2Proof/Laws/State.lean ====
section
/-!
SUPPORT. One lemma per field per update of the state, so that no later proof unfolds a record update; what each update
does to the fields it changes stands at its end, and the readers after it.
-/

namespace Sys2Proof.Machine

/-! ### putReg -/

@[simp] theorem State.putReg_hi (s : State) (i : RegIdx) (v : Word) : (s.putReg i v).hi = s.hi := by unfold State.putReg; split <;> rfl
@[simp] theorem State.putReg_lo (s : State) (i : RegIdx) (v : Word) : (s.putReg i v).lo = s.lo := by unfold State.putReg; split <;> rfl
@[simp] theorem State.putReg_pc (s : State) (i : RegIdx) (v : Word) : (s.putReg i v).pc = s.pc := by unfold State.putReg; split <;> rfl
@[simp] theorem State.putReg_branch (s : State) (i : RegIdx) (v : Word) : (s.putReg i v).branch = s.branch := by unfold State.putReg; split <;> rfl
@[simp] theorem State.putReg_branchDelay (s : State) (i : RegIdx) (v : Word) : (s.putReg i v).branchDelay = s.branchDelay := by unfold State.putReg; split <;> rfl
@[simp] theorem State.putReg_branchAddress (s : State) (i : RegIdx) (v : Word) : (s.putReg i v).branchAddress = s.branchAddress := by unfold State.putReg; split <;> rfl
@[simp] theorem State.putReg_slot0 (s : State) (i : RegIdx) (v : Word) : (s.putReg i v).slot0 = s.slot0 := by unfold State.putReg; split <;> rfl
@[simp] theorem State.putReg_slot1 (s : State) (i : RegIdx) (v : Word) : (s.putReg i v).slot1 = s.slot1 := by unfold State.putReg; split <;> rfl
@[simp] theorem State.putReg_cop0 (s : State) (i : RegIdx) (v : Word) : (s.putReg i v).cop0 = s.cop0 := by unfold State.putReg; split <;> rfl
@[simp] theorem State.putReg_mem (s : State) (i : RegIdx) (v : Word) : (s.putReg i v).mem = s.mem := by unfold State.putReg; split <;> rfl
@[simp] theorem State.putReg_dma (s : State) (i : RegIdx) (v : Word) : (s.putReg i v).dma = s.dma := by unfold State.putReg; split <;> rfl
@[simp] theorem State.putReg_directWritten (s : State) (i : RegIdx) (v : Word) : (s.putReg i v).directWritten = s.directWritten := by unfold State.putReg; split <;> rfl
@[simp] theorem State.putReg_trapped (s : State) (i : RegIdx) (v : Word) : (s.putReg i v).trapped = s.trapped := by unfold State.putReg; split <;> rfl
@[simp] theorem State.putReg_refused (s : State) (i : RegIdx) (v : Word) : (s.putReg i v).refused = s.refused := by unfold State.putReg; split <;> rfl
@[simp] theorem State.putReg_outputs (s : State) (i : RegIdx) (v : Word) : (s.putReg i v).outputs = s.outputs := by unfold State.putReg; split <;> rfl
@[simp] theorem State.putReg_draws (s : State) (i : RegIdx) (v : Word) : (s.putReg i v).draws = s.draws := by unfold State.putReg; split <;> rfl

/-! ### writeReg -/

@[simp] theorem State.writeReg_hi (s : State) (d : RegIdx) (v : Word) : (s.writeReg d v).hi = s.hi := by unfold State.writeReg; split <;> simp
@[simp] theorem State.writeReg_lo (s : State) (d : RegIdx) (v : Word) : (s.writeReg d v).lo = s.lo := by unfold State.writeReg; split <;> simp
@[simp] theorem State.writeReg_pc (s : State) (d : RegIdx) (v : Word) : (s.writeReg d v).pc = s.pc := by unfold State.writeReg; split <;> simp
@[simp] theorem State.writeReg_branch (s : State) (d : RegIdx) (v : Word) : (s.writeReg d v).branch = s.branch := by unfold State.writeReg; split <;> simp
@[simp] theorem State.writeReg_branchDelay (s : State) (d : RegIdx) (v : Word) : (s.writeReg d v).branchDelay = s.branchDelay := by unfold State.writeReg; split <;> simp
@[simp] theorem State.writeReg_branchAddress (s : State) (d : RegIdx) (v : Word) : (s.writeReg d v).branchAddress = s.branchAddress := by unfold State.writeReg; split <;> simp
@[simp] theorem State.writeReg_slot0 (s : State) (d : RegIdx) (v : Word) : (s.writeReg d v).slot0 = s.slot0 := by unfold State.writeReg; split <;> simp
@[simp] theorem State.writeReg_cop0 (s : State) (d : RegIdx) (v : Word) : (s.writeReg d v).cop0 = s.cop0 := by unfold State.writeReg; split <;> simp
@[simp] theorem State.writeReg_mem (s : State) (d : RegIdx) (v : Word) : (s.writeReg d v).mem = s.mem := by unfold State.writeReg; split <;> simp
@[simp] theorem State.writeReg_dma (s : State) (d : RegIdx) (v : Word) : (s.writeReg d v).dma = s.dma := by unfold State.writeReg; split <;> simp
@[simp] theorem State.writeReg_trapped (s : State) (d : RegIdx) (v : Word) : (s.writeReg d v).trapped = s.trapped := by unfold State.writeReg; split <;> simp
@[simp] theorem State.writeReg_refused (s : State) (d : RegIdx) (v : Word) : (s.writeReg d v).refused = s.refused := by unfold State.writeReg; split <;> simp
@[simp] theorem State.writeReg_outputs (s : State) (d : RegIdx) (v : Word) : (s.writeReg d v).outputs = s.outputs := by unfold State.writeReg; split <;> simp
@[simp] theorem State.writeReg_draws (s : State) (d : RegIdx) (v : Word) : (s.writeReg d v).draws = s.draws := by unfold State.writeReg; split <;> simp

/-! ### delayLoad -/

@[simp] theorem State.delayLoad_regs (s : State) (i : RegIdx) (v : Word) : (s.delayLoad i v).regs = s.regs := rfl
@[simp] theorem State.delayLoad_hi (s : State) (i : RegIdx) (v : Word) : (s.delayLoad i v).hi = s.hi := rfl
@[simp] theorem State.delayLoad_lo (s : State) (i : RegIdx) (v : Word) : (s.delayLoad i v).lo = s.lo := rfl
@[simp] theorem State.delayLoad_pc (s : State) (i : RegIdx) (v : Word) : (s.delayLoad i v).pc = s.pc := rfl
@[simp] theorem State.delayLoad_branch (s : State) (i : RegIdx) (v : Word) : (s.delayLoad i v).branch = s.branch := rfl
@[simp] theorem State.delayLoad_branchDelay (s : State) (i : RegIdx) (v : Word) : (s.delayLoad i v).branchDelay = s.branchDelay := rfl
@[simp] theorem State.delayLoad_branchAddress (s : State) (i : RegIdx) (v : Word) : (s.delayLoad i v).branchAddress = s.branchAddress := rfl
@[simp] theorem State.delayLoad_slot0 (s : State) (i : RegIdx) (v : Word) : (s.delayLoad i v).slot0 = if i = 0 then Slot.empty else ⟨i, v, false, s.pc⟩ := rfl
@[simp] theorem State.delayLoad_slot1 (s : State) (i : RegIdx) (v : Word) : (s.delayLoad i v).slot1 = s.slot1 := rfl
@[simp] theorem State.delayLoad_cop0 (s : State) (i : RegIdx) (v : Word) : (s.delayLoad i v).cop0 = s.cop0 := rfl
@[simp] theorem State.delayLoad_mem (s : State) (i : RegIdx) (v : Word) : (s.delayLoad i v).mem = s.mem := rfl
@[simp] theorem State.delayLoad_dma (s : State) (i : RegIdx) (v : Word) : (s.delayLoad i v).dma = s.dma := rfl
@[simp] theorem State.delayLoad_directWritten (s : State) (i : RegIdx) (v : Word) : (s.delayLoad i v).directWritten = s.directWritten := rfl
@[simp] theorem State.delayLoad_trapped (s : State) (i : RegIdx) (v : Word) : (s.delayLoad i v).trapped = s.trapped := rfl
@[simp] theorem State.delayLoad_refused (s : State) (i : RegIdx) (v : Word) : (s.delayLoad i v).refused = s.refused := rfl
@[simp] theorem State.delayLoad_outputs (s : State) (i : RegIdx) (v : Word) : (s.delayLoad i v).outputs = s.outputs := rfl
@[simp] theorem State.delayLoad_draws (s : State) (i : RegIdx) (v : Word) : (s.delayLoad i v).draws = s.draws := rfl

/-! ### recordBranch -/

@[simp] theorem State.recordBranch_regs (s : State) (t : Word) : (s.recordBranch t).regs = s.regs := rfl
@[simp] theorem State.recordBranch_hi (s : State) (t : Word) : (s.recordBranch t).hi = s.hi := rfl
@[simp] theorem State.recordBranch_lo (s : State) (t : Word) : (s.recordBranch t).lo = s.lo := rfl
@[simp] theorem State.recordBranch_pc (s : State) (t : Word) : (s.recordBranch t).pc = s.pc := rfl
@[simp] theorem State.recordBranch_branch (s : State) (t : Word) : (s.recordBranch t).branch = true := rfl
@[simp] theorem State.recordBranch_branchDelay (s : State) (t : Word) : (s.recordBranch t).branchDelay = s.branchDelay := rfl
@[simp] theorem State.recordBranch_branchAddress (s : State) (t : Word) : (s.recordBranch t).branchAddress = t := rfl
@[simp] theorem State.recordBranch_slot0 (s : State) (t : Word) : (s.recordBranch t).slot0 = s.slot0 := rfl
@[simp] theorem State.recordBranch_slot1 (s : State) (t : Word) : (s.recordBranch t).slot1 = s.slot1 := rfl
@[simp] theorem State.recordBranch_cop0 (s : State) (t : Word) : (s.recordBranch t).cop0 = s.cop0 := rfl
@[simp] theorem State.recordBranch_mem (s : State) (t : Word) : (s.recordBranch t).mem = s.mem := rfl
@[simp] theorem State.recordBranch_dma (s : State) (t : Word) : (s.recordBranch t).dma = s.dma := rfl
@[simp] theorem State.recordBranch_directWritten (s : State) (t : Word) : (s.recordBranch t).directWritten = s.directWritten := rfl
@[simp] theorem State.recordBranch_trapped (s : State) (t : Word) : (s.recordBranch t).trapped = s.trapped := rfl
@[simp] theorem State.recordBranch_refused (s : State) (t : Word) : (s.recordBranch t).refused = s.refused := rfl
@[simp] theorem State.recordBranch_outputs (s : State) (t : Word) : (s.recordBranch t).outputs = s.outputs := rfl
@[simp] theorem State.recordBranch_draws (s : State) (t : Word) : (s.recordBranch t).draws = s.draws := rfl

/-! ### branchIf -/

@[simp] theorem State.branchIf_regs (s : State) (c : Bool) (t : Word) : (s.branchIf c t).regs = s.regs := by unfold State.branchIf; split <;> rfl
@[simp] theorem State.branchIf_hi (s : State) (c : Bool) (t : Word) : (s.branchIf c t).hi = s.hi := by unfold State.branchIf; split <;> rfl
@[simp] theorem State.branchIf_lo (s : State) (c : Bool) (t : Word) : (s.branchIf c t).lo = s.lo := by unfold State.branchIf; split <;> rfl
@[simp] theorem State.branchIf_pc (s : State) (c : Bool) (t : Word) : (s.branchIf c t).pc = s.pc := by unfold State.branchIf; split <;> rfl
@[simp] theorem State.branchIf_branchDelay (s : State) (c : Bool) (t : Word) : (s.branchIf c t).branchDelay = s.branchDelay := by unfold State.branchIf; split <;> rfl
@[simp] theorem State.branchIf_slot0 (s : State) (c : Bool) (t : Word) : (s.branchIf c t).slot0 = s.slot0 := by unfold State.branchIf; split <;> rfl
@[simp] theorem State.branchIf_slot1 (s : State) (c : Bool) (t : Word) : (s.branchIf c t).slot1 = s.slot1 := by unfold State.branchIf; split <;> rfl
@[simp] theorem State.branchIf_cop0 (s : State) (c : Bool) (t : Word) : (s.branchIf c t).cop0 = s.cop0 := by unfold State.branchIf; split <;> rfl
@[simp] theorem State.branchIf_mem (s : State) (c : Bool) (t : Word) : (s.branchIf c t).mem = s.mem := by unfold State.branchIf; split <;> rfl
@[simp] theorem State.branchIf_dma (s : State) (c : Bool) (t : Word) : (s.branchIf c t).dma = s.dma := by unfold State.branchIf; split <;> rfl
@[simp] theorem State.branchIf_directWritten (s : State) (c : Bool) (t : Word) : (s.branchIf c t).directWritten = s.directWritten := by unfold State.branchIf; split <;> rfl
@[simp] theorem State.branchIf_trapped (s : State) (c : Bool) (t : Word) : (s.branchIf c t).trapped = s.trapped := by unfold State.branchIf; split <;> rfl
@[simp] theorem State.branchIf_refused (s : State) (c : Bool) (t : Word) : (s.branchIf c t).refused = s.refused := by unfold State.branchIf; split <;> rfl
@[simp] theorem State.branchIf_outputs (s : State) (c : Bool) (t : Word) : (s.branchIf c t).outputs = s.outputs := by unfold State.branchIf; split <;> rfl
@[simp] theorem State.branchIf_draws (s : State) (c : Bool) (t : Word) : (s.branchIf c t).draws = s.draws := by unfold State.branchIf; split <;> rfl

/-! ### setCop0 -/

@[simp] theorem State.setCop0_regs (s : State) (i : RegIdx) (v : Word) : (s.setCop0 i v).regs = s.regs := rfl
@[simp] theorem State.setCop0_hi (s : State) (i : RegIdx) (v : Word) : (s.setCop0 i v).hi = s.hi := rfl
@[simp] theorem State.setCop0_lo (s : State) (i : RegIdx) (v : Word) : (s.setCop0 i v).lo = s.lo := rfl
@[simp] theorem State.setCop0_pc (s : State) (i : RegIdx) (v : Word) : (s.setCop0 i v).pc = s.pc := rfl
@[simp] theorem State.setCop0_branch (s : State) (i : RegIdx) (v : Word) : (s.setCop0 i v).branch = s.branch := rfl
@[simp] theorem State.setCop0_branchDelay (s : State) (i : RegIdx) (v : Word) : (s.setCop0 i v).branchDelay = s.branchDelay := rfl
@[simp] theorem State.setCop0_branchAddress (s : State) (i : RegIdx) (v : Word) : (s.setCop0 i v).branchAddress = s.branchAddress := rfl
@[simp] theorem State.setCop0_slot0 (s : State) (i : RegIdx) (v : Word) : (s.setCop0 i v).slot0 = s.slot0 := rfl
@[simp] theorem State.setCop0_slot1 (s : State) (i : RegIdx) (v : Word) : (s.setCop0 i v).slot1 = s.slot1 := rfl
@[simp] theorem State.setCop0_cop0 (s : State) (i : RegIdx) (v : Word) : (s.setCop0 i v).cop0 = s.cop0.set i v := rfl
@[simp] theorem State.setCop0_mem (s : State) (i : RegIdx) (v : Word) : (s.setCop0 i v).mem = s.mem := rfl
@[simp] theorem State.setCop0_dma (s : State) (i : RegIdx) (v : Word) : (s.setCop0 i v).dma = s.dma := rfl
@[simp] theorem State.setCop0_directWritten (s : State) (i : RegIdx) (v : Word) : (s.setCop0 i v).directWritten = s.directWritten := rfl
@[simp] theorem State.setCop0_trapped (s : State) (i : RegIdx) (v : Word) : (s.setCop0 i v).trapped = s.trapped := rfl
@[simp] theorem State.setCop0_refused (s : State) (i : RegIdx) (v : Word) : (s.setCop0 i v).refused = s.refused := rfl
@[simp] theorem State.setCop0_outputs (s : State) (i : RegIdx) (v : Word) : (s.setCop0 i v).outputs = s.outputs := rfl
@[simp] theorem State.setCop0_draws (s : State) (i : RegIdx) (v : Word) : (s.setCop0 i v).draws = s.draws := rfl

/-! ### writeCop0 -/

@[simp] theorem State.writeCop0_regs (s : State) (i : RegIdx) (v : Word) : (s.writeCop0 i v).regs = s.regs := rfl
@[simp] theorem State.writeCop0_hi (s : State) (i : RegIdx) (v : Word) : (s.writeCop0 i v).hi = s.hi := rfl
@[simp] theorem State.writeCop0_lo (s : State) (i : RegIdx) (v : Word) : (s.writeCop0 i v).lo = s.lo := rfl
@[simp] theorem State.writeCop0_pc (s : State) (i : RegIdx) (v : Word) : (s.writeCop0 i v).pc = s.pc := rfl
@[simp] theorem State.writeCop0_branch (s : State) (i : RegIdx) (v : Word) : (s.writeCop0 i v).branch = s.branch := rfl
@[simp] theorem State.writeCop0_branchDelay (s : State) (i : RegIdx) (v : Word) : (s.writeCop0 i v).branchDelay = s.branchDelay := rfl
@[simp] theorem State.writeCop0_branchAddress (s : State) (i : RegIdx) (v : Word) : (s.writeCop0 i v).branchAddress = s.branchAddress := rfl
@[simp] theorem State.writeCop0_slot0 (s : State) (i : RegIdx) (v : Word) : (s.writeCop0 i v).slot0 = s.slot0 := rfl
@[simp] theorem State.writeCop0_slot1 (s : State) (i : RegIdx) (v : Word) : (s.writeCop0 i v).slot1 = s.slot1 := rfl
@[simp] theorem State.writeCop0_mem (s : State) (i : RegIdx) (v : Word) : (s.writeCop0 i v).mem = s.mem := rfl
@[simp] theorem State.writeCop0_dma (s : State) (i : RegIdx) (v : Word) : (s.writeCop0 i v).dma = s.dma := rfl
@[simp] theorem State.writeCop0_directWritten (s : State) (i : RegIdx) (v : Word) : (s.writeCop0 i v).directWritten = s.directWritten := rfl
@[simp] theorem State.writeCop0_trapped (s : State) (i : RegIdx) (v : Word) : (s.writeCop0 i v).trapped = s.trapped := rfl
@[simp] theorem State.writeCop0_refused (s : State) (i : RegIdx) (v : Word) : (s.writeCop0 i v).refused = s.refused := rfl
@[simp] theorem State.writeCop0_outputs (s : State) (i : RegIdx) (v : Word) : (s.writeCop0 i v).outputs = s.outputs := rfl
@[simp] theorem State.writeCop0_draws (s : State) (i : RegIdx) (v : Word) : (s.writeCop0 i v).draws = s.draws := rfl

/-! ### popModeStack -/

@[simp] theorem State.popModeStack_regs (s : State) : (s.popModeStack).regs = s.regs := rfl
@[simp] theorem State.popModeStack_hi (s : State) : (s.popModeStack).hi = s.hi := rfl
@[simp] theorem State.popModeStack_lo (s : State) : (s.popModeStack).lo = s.lo := rfl
@[simp] theorem State.popModeStack_pc (s : State) : (s.popModeStack).pc = s.pc := rfl
@[simp] theorem State.popModeStack_branch (s : State) : (s.popModeStack).branch = s.branch := rfl
@[simp] theorem State.popModeStack_branchDelay (s : State) : (s.popModeStack).branchDelay = s.branchDelay := rfl
@[simp] theorem State.popModeStack_branchAddress (s : State) : (s.popModeStack).branchAddress = s.branchAddress := rfl
@[simp] theorem State.popModeStack_slot0 (s : State) : (s.popModeStack).slot0 = s.slot0 := rfl
@[simp] theorem State.popModeStack_slot1 (s : State) : (s.popModeStack).slot1 = s.slot1 := rfl
@[simp] theorem State.popModeStack_mem (s : State) : (s.popModeStack).mem = s.mem := rfl
@[simp] theorem State.popModeStack_dma (s : State) : (s.popModeStack).dma = s.dma := rfl
@[simp] theorem State.popModeStack_directWritten (s : State) : (s.popModeStack).directWritten = s.directWritten := rfl
@[simp] theorem State.popModeStack_trapped (s : State) : (s.popModeStack).trapped = s.trapped := rfl
@[simp] theorem State.popModeStack_refused (s : State) : (s.popModeStack).refused = s.refused := rfl
@[simp] theorem State.popModeStack_outputs (s : State) : (s.popModeStack).outputs = s.outputs := rfl
@[simp] theorem State.popModeStack_draws (s : State) : (s.popModeStack).draws = s.draws := rfl

/-! ### emit -/

@[simp] theorem State.emit_regs (s : State) (e : Event) : (s.emit e).regs = s.regs := rfl
@[simp] theorem State.emit_hi (s : State) (e : Event) : (s.emit e).hi = s.hi := rfl
@[simp] theorem State.emit_lo (s : State) (e : Event) : (s.emit e).lo = s.lo := rfl
@[simp] theorem State.emit_pc (s : State) (e : Event) : (s.emit e).pc = s.pc := rfl
@[simp] theorem State.emit_branch (s : State) (e : Event) : (s.emit e).branch = s.branch := rfl
@[simp] theorem State.emit_branchDelay (s : State) (e : Event) : (s.emit e).branchDelay = s.branchDelay := rfl
@[simp] theorem State.emit_branchAddress (s : State) (e : Event) : (s.emit e).branchAddress = s.branchAddress := rfl
@[simp] theorem State.emit_slot0 (s : State) (e : Event) : (s.emit e).slot0 = s.slot0 := rfl
@[simp] theorem State.emit_slot1 (s : State) (e : Event) : (s.emit e).slot1 = s.slot1 := rfl
@[simp] theorem State.emit_cop0 (s : State) (e : Event) : (s.emit e).cop0 = s.cop0 := rfl
@[simp] theorem State.emit_mem (s : State) (e : Event) : (s.emit e).mem = s.mem := rfl
@[simp] theorem State.emit_dma (s : State) (e : Event) : (s.emit e).dma = s.dma := rfl
@[simp] theorem State.emit_directWritten (s : State) (e : Event) : (s.emit e).directWritten = s.directWritten := rfl
@[simp] theorem State.emit_trapped (s : State) (e : Event) : (s.emit e).trapped = s.trapped := rfl
@[simp] theorem State.emit_refused (s : State) (e : Event) : (s.emit e).refused = s.refused := rfl
@[simp] theorem State.emit_outputs (s : State) (e : Event) : (s.emit e).outputs = s.outputs ++ [e] := rfl
@[simp] theorem State.emit_draws (s : State) (e : Event) : (s.emit e).draws = s.draws := rfl

/-! ### nextDraw -/

@[simp] theorem State.nextDraw_regs (s : State) : (s.nextDraw).regs = s.regs := rfl
@[simp] theorem State.nextDraw_hi (s : State) : (s.nextDraw).hi = s.hi := rfl
@[simp] theorem State.nextDraw_lo (s : State) : (s.nextDraw).lo = s.lo := rfl
@[simp] theorem State.nextDraw_pc (s : State) : (s.nextDraw).pc = s.pc := rfl
@[simp] theorem State.nextDraw_branch (s : State) : (s.nextDraw).branch = s.branch := rfl
@[simp] theorem State.nextDraw_branchDelay (s : State) : (s.nextDraw).branchDelay = s.branchDelay := rfl
@[simp] theorem State.nextDraw_branchAddress (s : State) : (s.nextDraw).branchAddress = s.branchAddress := rfl
@[simp] theorem State.nextDraw_slot0 (s : State) : (s.nextDraw).slot0 = s.slot0 := rfl
@[simp] theorem State.nextDraw_slot1 (s : State) : (s.nextDraw).slot1 = s.slot1 := rfl
@[simp] theorem State.nextDraw_cop0 (s : State) : (s.nextDraw).cop0 = s.cop0 := rfl
@[simp] theorem State.nextDraw_mem (s : State) : (s.nextDraw).mem = s.mem := rfl
@[simp] theorem State.nextDraw_dma (s : State) : (s.nextDraw).dma = s.dma := rfl
@[simp] theorem State.nextDraw_directWritten (s : State) : (s.nextDraw).directWritten = s.directWritten := rfl
@[simp] theorem State.nextDraw_trapped (s : State) : (s.nextDraw).trapped = s.trapped := rfl
@[simp] theorem State.nextDraw_refused (s : State) : (s.nextDraw).refused = s.refused := rfl
@[simp] theorem State.nextDraw_outputs (s : State) : (s.nextDraw).outputs = s.outputs := rfl
@[simp] theorem State.nextDraw_draws (s : State) : (s.nextDraw).draws = s.draws + 1 := rfl

/-! ### enterException -/

@[simp] theorem State.enterException_regs (s : State) (e : Exc) : (s.enterException e).regs = s.regs := by cases e <;> rfl
@[simp] theorem State.enterException_hi (s : State) (e : Exc) : (s.enterException e).hi = s.hi := by cases e <;> rfl
@[simp] theorem State.enterException_lo (s : State) (e : Exc) : (s.enterException e).lo = s.lo := by cases e <;> rfl
@[simp] theorem State.enterException_branch (s : State) (e : Exc) : (s.enterException e).branch = false := by cases e <;> rfl
@[simp] theorem State.enterException_branchDelay (s : State) (e : Exc) : (s.enterException e).branchDelay = s.branchDelay := by cases e <;> rfl
@[simp] theorem State.enterException_branchAddress (s : State) (e : Exc) : (s.enterException e).branchAddress = s.branchAddress := by cases e <;> rfl
@[simp] theorem State.enterException_slot0 (s : State) (e : Exc) : (s.enterException e).slot0 = s.slot0 := by cases e <;> rfl
@[simp] theorem State.enterException_slot1 (s : State) (e : Exc) : (s.enterException e).slot1 = s.slot1 := by cases e <;> rfl
@[simp] theorem State.enterException_mem (s : State) (e : Exc) : (s.enterException e).mem = s.mem := by cases e <;> rfl
@[simp] theorem State.enterException_dma (s : State) (e : Exc) : (s.enterException e).dma = s.dma := by cases e <;> rfl
@[simp] theorem State.enterException_directWritten (s : State) (e : Exc) : (s.enterException e).directWritten = s.directWritten := by cases e <;> rfl
@[simp] theorem State.enterException_trapped (s : State) (e : Exc) : (s.enterException e).trapped = true := by cases e <;> rfl
@[simp] theorem State.enterException_refused (s : State) (e : Exc) : (s.enterException e).refused = s.refused := by cases e <;> rfl
@[simp] theorem State.enterException_outputs (s : State) (e : Exc) : (s.enterException e).outputs = s.outputs := by cases e <;> rfl
@[simp] theorem State.enterException_draws (s : State) (e : Exc) : (s.enterException e).draws = s.draws := by cases e <;> rfl

/-! ### startTransients -/

@[simp] theorem State.startTransients_regs (s : State) : (s.startTransients).regs = s.regs := rfl
@[simp] theorem State.startTransients_hi (s : State) : (s.startTransients).hi = s.hi := rfl
@[simp] theorem State.startTransients_lo (s : State) : (s.startTransients).lo = s.lo := rfl
@[simp] theorem State.startTransients_pc (s : State) : (s.startTransients).pc = s.pc := rfl
@[simp] theorem State.startTransients_branch (s : State) : (s.startTransients).branch = s.branch := rfl
@[simp] theorem State.startTransients_branchDelay (s : State) : (s.startTransients).branchDelay = s.branch := rfl
@[simp] theorem State.startTransients_branchAddress (s : State) : (s.startTransients).branchAddress = s.branchAddress := rfl
@[simp] theorem State.startTransients_slot0 (s : State) : (s.startTransients).slot0 = s.slot0 := rfl
@[simp] theorem State.startTransients_slot1 (s : State) : (s.startTransients).slot1 = s.slot1 := rfl
@[simp] theorem State.startTransients_cop0 (s : State) : (s.startTransients).cop0 = s.cop0 := rfl
@[simp] theorem State.startTransients_mem (s : State) : (s.startTransients).mem = s.mem := rfl
@[simp] theorem State.startTransients_dma (s : State) : (s.startTransients).dma = s.dma := rfl
@[simp] theorem State.startTransients_directWritten (s : State) : (s.startTransients).directWritten = none := rfl
@[simp] theorem State.startTransients_trapped (s : State) : (s.startTransients).trapped = false := rfl
@[simp] theorem State.startTransients_refused (s : State) : (s.startTransients).refused = s.refused := rfl
@[simp] theorem State.startTransients_outputs (s : State) : (s.startTransients).outputs = s.outputs := rfl
@[simp] theorem State.startTransients_draws (s : State) : (s.startTransients).draws = s.draws := rfl

/-! ### ttyHook -/

@[simp] theorem State.ttyHook_regs (s : State) : (s.ttyHook).regs = s.regs := by unfold State.ttyHook; split <;> rfl
@[simp] theorem State.ttyHook_hi (s : State) : (s.ttyHook).hi = s.hi := by unfold State.ttyHook; split <;> rfl
@[simp] theorem State.ttyHook_lo (s : State) : (s.ttyHook).lo = s.lo := by unfold State.ttyHook; split <;> rfl
@[simp] theorem State.ttyHook_pc (s : State) : (s.ttyHook).pc = s.pc := by unfold State.ttyHook; split <;> rfl
@[simp] theorem State.ttyHook_branch (s : State) : (s.ttyHook).branch = s.branch := by unfold State.ttyHook; split <;> rfl
@[simp] theorem State.ttyHook_branchDelay (s : State) : (s.ttyHook).branchDelay = s.branchDelay := by unfold State.ttyHook; split <;> rfl
@[simp] theorem State.ttyHook_branchAddress (s : State) : (s.ttyHook).branchAddress = s.branchAddress := by unfold State.ttyHook; split <;> rfl
@[simp] theorem State.ttyHook_slot0 (s : State) : (s.ttyHook).slot0 = s.slot0 := by unfold State.ttyHook; split <;> rfl
@[simp] theorem State.ttyHook_slot1 (s : State) : (s.ttyHook).slot1 = s.slot1 := by unfold State.ttyHook; split <;> rfl
@[simp] theorem State.ttyHook_cop0 (s : State) : (s.ttyHook).cop0 = s.cop0 := by unfold State.ttyHook; split <;> rfl
@[simp] theorem State.ttyHook_mem (s : State) : (s.ttyHook).mem = s.mem := by unfold State.ttyHook; split <;> rfl
@[simp] theorem State.ttyHook_dma (s : State) : (s.ttyHook).dma = s.dma := by unfold State.ttyHook; split <;> rfl
@[simp] theorem State.ttyHook_directWritten (s : State) : (s.ttyHook).directWritten = s.directWritten := by unfold State.ttyHook; split <;> rfl
@[simp] theorem State.ttyHook_trapped (s : State) : (s.ttyHook).trapped = s.trapped := by unfold State.ttyHook; split <;> rfl
@[simp] theorem State.ttyHook_refused (s : State) : (s.ttyHook).refused = s.refused := by unfold State.ttyHook; split <;> rfl
@[simp] theorem State.ttyHook_draws (s : State) : (s.ttyHook).draws = s.draws := by unfold State.ttyHook; split <;> rfl

/-! ### advanceFifo -/

@[simp] theorem State.advanceFifo_regs (s : State) : (s.advanceFifo).regs = s.regs := rfl
@[simp] theorem State.advanceFifo_hi (s : State) : (s.advanceFifo).hi = s.hi := rfl
@[simp] theorem State.advanceFifo_lo (s : State) : (s.advanceFifo).lo = s.lo := rfl
@[simp] theorem State.advanceFifo_pc (s : State) : (s.advanceFifo).pc = s.pc := rfl
@[simp] theorem State.advanceFifo_branch (s : State) : (s.advanceFifo).branch = s.branch := rfl
@[simp] theorem State.advanceFifo_branchDelay (s : State) : (s.advanceFifo).branchDelay = s.branchDelay := rfl
@[simp] theorem State.advanceFifo_branchAddress (s : State) : (s.advanceFifo).branchAddress = s.branchAddress := rfl
@[simp] theorem State.advanceFifo_slot0 (s : State) : (s.advanceFifo).slot0 = Slot.empty := rfl
@[simp] theorem State.advanceFifo_slot1 (s : State) : (s.advanceFifo).slot1 = s.slot0 := rfl
@[simp] theorem State.advanceFifo_cop0 (s : State) : (s.advanceFifo).cop0 = s.cop0 := rfl
@[simp] theorem State.advanceFifo_mem (s : State) : (s.advanceFifo).mem = s.mem := rfl
@[simp] theorem State.advanceFifo_dma (s : State) : (s.advanceFifo).dma = s.dma := rfl
@[simp] theorem State.advanceFifo_directWritten (s : State) : (s.advanceFifo).directWritten = s.directWritten := rfl
@[simp] theorem State.advanceFifo_trapped (s : State) : (s.advanceFifo).trapped = s.trapped := rfl
@[simp] theorem State.advanceFifo_refused (s : State) : (s.advanceFifo).refused = s.refused := rfl
@[simp] theorem State.advanceFifo_outputs (s : State) : (s.advanceFifo).outputs = s.outputs := rfl
@[simp] theorem State.advanceFifo_draws (s : State) : (s.advanceFifo).draws = s.draws := rfl

/-! ### advancePc -/

@[simp] theorem State.advancePc_regs (s : State) : (s.advancePc).regs = s.regs := rfl
@[simp] theorem State.advancePc_hi (s : State) : (s.advancePc).hi = s.hi := rfl
@[simp] theorem State.advancePc_lo (s : State) : (s.advancePc).lo = s.lo := rfl
@[simp] theorem State.advancePc_pc (s : State) : (s.advancePc).pc = s.pc + 4#32 := rfl
@[simp] theorem State.advancePc_branch (s : State) : (s.advancePc).branch = s.branch := rfl
@[simp] theorem State.advancePc_branchDelay (s : State) : (s.advancePc).branchDelay = s.branchDelay := rfl
@[simp] theorem State.advancePc_branchAddress (s : State) : (s.advancePc).branchAddress = s.branchAddress := rfl
@[simp] theorem State.advancePc_slot0 (s : State) : (s.advancePc).slot0 = s.slot0 := rfl
@[simp] theorem State.advancePc_slot1 (s : State) : (s.advancePc).slot1 = s.slot1 := rfl
@[simp] theorem State.advancePc_cop0 (s : State) : (s.advancePc).cop0 = s.cop0 := rfl
@[simp] theorem State.advancePc_mem (s : State) : (s.advancePc).mem = s.mem := rfl
@[simp] theorem State.advancePc_dma (s : State) : (s.advancePc).dma = s.dma := rfl
@[simp] theorem State.advancePc_directWritten (s : State) : (s.advancePc).directWritten = s.directWritten := rfl
@[simp] theorem State.advancePc_trapped (s : State) : (s.advancePc).trapped = s.trapped := rfl
@[simp] theorem State.advancePc_refused (s : State) : (s.advancePc).refused = s.refused := rfl
@[simp] theorem State.advancePc_outputs (s : State) : (s.advancePc).outputs = s.outputs := rfl
@[simp] theorem State.advancePc_draws (s : State) : (s.advancePc).draws = s.draws := rfl

/-! ### resolveBranch -/

@[simp] theorem State.resolveBranch_regs (s : State) : (s.resolveBranch).regs = s.regs := by unfold State.resolveBranch; split <;> rfl
@[simp] theorem State.resolveBranch_hi (s : State) : (s.resolveBranch).hi = s.hi := by unfold State.resolveBranch; split <;> rfl
@[simp] theorem State.resolveBranch_lo (s : State) : (s.resolveBranch).lo = s.lo := by unfold State.resolveBranch; split <;> rfl
@[simp] theorem State.resolveBranch_branchDelay (s : State) : (s.resolveBranch).branchDelay = s.branchDelay := by unfold State.resolveBranch; split <;> rfl
@[simp] theorem State.resolveBranch_branchAddress (s : State) : (s.resolveBranch).branchAddress = s.branchAddress := by unfold State.resolveBranch; split <;> rfl
@[simp] theorem State.resolveBranch_slot0 (s : State) : (s.resolveBranch).slot0 = s.slot0 := by unfold State.resolveBranch; split <;> rfl
@[simp] theorem State.resolveBranch_slot1 (s : State) : (s.resolveBranch).slot1 = s.slot1 := by unfold State.resolveBranch; split <;> rfl
@[simp] theorem State.resolveBranch_cop0 (s : State) : (s.resolveBranch).cop0 = s.cop0 := by unfold State.resolveBranch; split <;> rfl
@[simp] theorem State.resolveBranch_mem (s : State) : (s.resolveBranch).mem = s.mem := by unfold State.resolveBranch; split <;> rfl
@[simp] theorem State.resolveBranch_dma (s : State) : (s.resolveBranch).dma = s.dma := by unfold State.resolveBranch; split <;> rfl
@[simp] theorem State.resolveBranch_directWritten (s : State) : (s.resolveBranch).directWritten = s.directWritten := by unfold State.resolveBranch; split <;> rfl
@[simp] theorem State.resolveBranch_trapped (s : State) : (s.resolveBranch).trapped = s.trapped := by unfold State.resolveBranch; split <;> rfl
@[simp] theorem State.resolveBranch_refused (s : State) : (s.resolveBranch).refused = s.refused := by unfold State.resolveBranch; split <;> rfl
@[simp] theorem State.resolveBranch_outputs (s : State) : (s.resolveBranch).outputs = s.outputs := by unfold State.resolveBranch; split <;> rfl
@[simp] theorem State.resolveBranch_draws (s : State) : (s.resolveBranch).draws = s.draws := by unfold State.resolveBranch; split <;> rfl

/-! ### commitLoad -/

@[simp] theorem State.commitLoad_hi (s : State) : (s.commitLoad).hi = s.hi := by unfold State.commitLoad; dsimp only; split <;> simp
@[simp] theorem State.commitLoad_lo (s : State) : (s.commitLoad).lo = s.lo := by unfold State.commitLoad; dsimp only; split <;> simp
@[simp] theorem State.commitLoad_pc (s : State) : (s.commitLoad).pc = s.pc := by unfold State.commitLoad; dsimp only; split <;> simp
@[simp] theorem State.commitLoad_branch (s : State) : (s.commitLoad).branch = s.branch := by unfold State.commitLoad; dsimp only; split <;> simp
@[simp] theorem State.commitLoad_branchDelay (s : State) : (s.commitLoad).branchDelay = s.branchDelay := by unfold State.commitLoad; dsimp only; split <;> simp
@[simp] theorem State.commitLoad_branchAddress (s : State) : (s.commitLoad).branchAddress = s.branchAddress := by unfold State.commitLoad; dsimp only; split <;> simp
@[simp] theorem State.commitLoad_slot0 (s : State) : (s.commitLoad).slot0 = s.slot0 := by unfold State.commitLoad; dsimp only; split <;> simp
@[simp] theorem State.commitLoad_slot1 (s : State) : (s.commitLoad).slot1 = Slot.empty := by unfold State.commitLoad; dsimp only; split <;> simp
@[simp] theorem State.commitLoad_cop0 (s : State) : (s.commitLoad).cop0 = s.cop0 := by unfold State.commitLoad; dsimp only; split <;> simp
@[simp] theorem State.commitLoad_mem (s : State) : (s.commitLoad).mem = s.mem := by unfold State.commitLoad; dsimp only; split <;> simp
@[simp] theorem State.commitLoad_dma (s : State) : (s.commitLoad).dma = s.dma := by unfold State.commitLoad; dsimp only; split <;> simp
@[simp] theorem State.commitLoad_directWritten (s : State) : (s.commitLoad).directWritten = s.directWritten := by unfold State.commitLoad; dsimp only; split <;> simp
@[simp] theorem State.commitLoad_trapped (s : State) : (s.commitLoad).trapped = s.trapped := by unfold State.commitLoad; dsimp only; split <;> simp
@[simp] theorem State.commitLoad_refused (s : State) : (s.commitLoad).refused = s.refused := by unfold State.commitLoad; dsimp only; split <;> simp
@[simp] theorem State.commitLoad_outputs (s : State) : (s.commitLoad).outputs = s.outputs := by unfold State.commitLoad; dsimp only; split <;> simp
@[simp] theorem State.commitLoad_draws (s : State) : (s.commitLoad).draws = s.draws := by unfold State.commitLoad; dsimp only; split <;> simp

/-! ### clearZero -/

@[simp] theorem State.clearZero_regs (s : State) : (s.clearZero).regs = s.regs.set 0 0#32 := rfl
@[simp] theorem State.clearZero_hi (s : State) : (s.clearZero).hi = s.hi := rfl
@[simp] theorem State.clearZero_lo (s : State) : (s.clearZero).lo = s.lo := rfl
@[simp] theorem State.clearZero_pc (s : State) : (s.clearZero).pc = s.pc := rfl
@[simp] theorem State.clearZero_branch (s : State) : (s.clearZero).branch = s.branch := rfl
@[simp] theorem State.clearZero_branchDelay (s : State) : (s.clearZero).branchDelay = s.branchDelay := rfl
@[simp] theorem State.clearZero_branchAddress (s : State) : (s.clearZero).branchAddress = s.branchAddress := rfl
@[simp] theorem State.clearZero_slot0 (s : State) : (s.clearZero).slot0 = s.slot0 := rfl
@[simp] theorem State.clearZero_slot1 (s : State) : (s.clearZero).slot1 = s.slot1 := rfl
@[simp] theorem State.clearZero_cop0 (s : State) : (s.clearZero).cop0 = s.cop0 := rfl
@[simp] theorem State.clearZero_mem (s : State) : (s.clearZero).mem = s.mem := rfl
@[simp] theorem State.clearZero_dma (s : State) : (s.clearZero).dma = s.dma := rfl
@[simp] theorem State.clearZero_directWritten (s : State) : (s.clearZero).directWritten = s.directWritten := rfl
@[simp] theorem State.clearZero_trapped (s : State) : (s.clearZero).trapped = s.trapped := rfl
@[simp] theorem State.clearZero_refused (s : State) : (s.clearZero).refused = s.refused := rfl
@[simp] theorem State.clearZero_outputs (s : State) : (s.clearZero).outputs = s.outputs := rfl
@[simp] theorem State.clearZero_draws (s : State) : (s.clearZero).draws = s.draws := rfl

/-! ### applyPump -/

@[simp] theorem State.applyPump_regs (s : State) (p : PumpEffect) : (s.applyPump p).regs = s.regs := rfl
@[simp] theorem State.applyPump_hi (s : State) (p : PumpEffect) : (s.applyPump p).hi = s.hi := rfl
@[simp] theorem State.applyPump_lo (s : State) (p : PumpEffect) : (s.applyPump p).lo = s.lo := rfl
@[simp] theorem State.applyPump_pc (s : State) (p : PumpEffect) : (s.applyPump p).pc = s.pc := rfl
@[simp] theorem State.applyPump_branch (s : State) (p : PumpEffect) : (s.applyPump p).branch = s.branch := rfl
@[simp] theorem State.applyPump_branchDelay (s : State) (p : PumpEffect) : (s.applyPump p).branchDelay = s.branchDelay := rfl
@[simp] theorem State.applyPump_branchAddress (s : State) (p : PumpEffect) : (s.applyPump p).branchAddress = s.branchAddress := rfl
@[simp] theorem State.applyPump_slot0 (s : State) (p : PumpEffect) : (s.applyPump p).slot0 = s.slot0 := rfl
@[simp] theorem State.applyPump_slot1 (s : State) (p : PumpEffect) : (s.applyPump p).slot1 = s.slot1 := rfl
@[simp] theorem State.applyPump_cop0 (s : State) (p : PumpEffect) : (s.applyPump p).cop0 = s.cop0 := rfl
@[simp] theorem State.applyPump_dma (s : State) (p : PumpEffect) : (s.applyPump p).dma = p.dma := rfl
@[simp] theorem State.applyPump_directWritten (s : State) (p : PumpEffect) : (s.applyPump p).directWritten = s.directWritten := rfl
@[simp] theorem State.applyPump_trapped (s : State) (p : PumpEffect) : (s.applyPump p).trapped = s.trapped := rfl
@[simp] theorem State.applyPump_refused (s : State) (p : PumpEffect) : (s.applyPump p).refused = s.refused := rfl
@[simp] theorem State.applyPump_draws (s : State) (p : PumpEffect) : (s.applyPump p).draws = s.draws := rfl

/-! ### pump -/

@[simp] theorem State.pump_regs (s : State) : (s.pump).regs = s.regs := by unfold State.pump; split <;> rfl
@[simp] theorem State.pump_hi (s : State) : (s.pump).hi = s.hi := by unfold State.pump; split <;> rfl
@[simp] theorem State.pump_lo (s : State) : (s.pump).lo = s.lo := by unfold State.pump; split <;> rfl
@[simp] theorem State.pump_pc (s : State) : (s.pump).pc = s.pc := by unfold State.pump; split <;> rfl
@[simp] theorem State.pump_branch (s : State) : (s.pump).branch = s.branch := by unfold State.pump; split <;> rfl
@[simp] theorem State.pump_branchDelay (s : State) : (s.pump).branchDelay = s.branchDelay := by unfold State.pump; split <;> rfl
@[simp] theorem State.pump_branchAddress (s : State) : (s.pump).branchAddress = s.branchAddress := by unfold State.pump; split <;> rfl
@[simp] theorem State.pump_slot0 (s : State) : (s.pump).slot0 = s.slot0 := by unfold State.pump; split <;> rfl
@[simp] theorem State.pump_slot1 (s : State) : (s.pump).slot1 = s.slot1 := by unfold State.pump; split <;> rfl
@[simp] theorem State.pump_cop0 (s : State) : (s.pump).cop0 = s.cop0 := by unfold State.pump; split <;> rfl
@[simp] theorem State.pump_directWritten (s : State) : (s.pump).directWritten = s.directWritten := by unfold State.pump; split <;> rfl
@[simp] theorem State.pump_trapped (s : State) : (s.pump).trapped = s.trapped := by unfold State.pump; split <;> rfl
@[simp] theorem State.pump_refused (s : State) : (s.pump).refused = s.refused := by unfold State.pump; split <;> rfl
@[simp] theorem State.pump_draws (s : State) : (s.pump).draws = s.draws := by unfold State.pump; split <;> rfl

/-! ### dropTransients -/

@[simp] theorem State.dropTransients_regs (s : State) : (s.dropTransients).regs = s.regs := rfl
@[simp] theorem State.dropTransients_hi (s : State) : (s.dropTransients).hi = s.hi := rfl
@[simp] theorem State.dropTransients_lo (s : State) : (s.dropTransients).lo = s.lo := rfl
@[simp] theorem State.dropTransients_pc (s : State) : (s.dropTransients).pc = s.pc := rfl
@[simp] theorem State.dropTransients_branch (s : State) : (s.dropTransients).branch = s.branch := rfl
@[simp] theorem State.dropTransients_branchDelay (s : State) : (s.dropTransients).branchDelay = s.branchDelay := rfl
@[simp] theorem State.dropTransients_branchAddress (s : State) : (s.dropTransients).branchAddress = s.branchAddress := rfl
@[simp] theorem State.dropTransients_slot0 (s : State) : (s.dropTransients).slot0 = s.slot0 := rfl
@[simp] theorem State.dropTransients_slot1 (s : State) : (s.dropTransients).slot1 = s.slot1 := rfl
@[simp] theorem State.dropTransients_cop0 (s : State) : (s.dropTransients).cop0 = s.cop0 := rfl
@[simp] theorem State.dropTransients_mem (s : State) : (s.dropTransients).mem = s.mem := rfl
@[simp] theorem State.dropTransients_dma (s : State) : (s.dropTransients).dma = s.dma := rfl
@[simp] theorem State.dropTransients_directWritten (s : State) : (s.dropTransients).directWritten = none := rfl
@[simp] theorem State.dropTransients_trapped (s : State) : (s.dropTransients).trapped = false := rfl
@[simp] theorem State.dropTransients_refused (s : State) : (s.dropTransients).refused = s.refused := rfl
@[simp] theorem State.dropTransients_outputs (s : State) : (s.dropTransients).outputs = s.outputs := rfl
@[simp] theorem State.dropTransients_draws (s : State) : (s.dropTransients).draws = s.draws := rfl

/-! ### The readers -/

@[simp] theorem State.reg_zero (s : State) : s.reg 0 = 0#32 := rfl

theorem State.reg_of_regs {s t : State} (h : t.regs = s.regs) (r : RegIdx) : t.reg r = s.reg r := by
  unfold State.reg; rw [h]

theorem State.cop0At_of_cop0 {s t : State} (h : t.cop0 = s.cop0) (i : RegIdx) : t.cop0At i = s.cop0At i := by
  unfold State.cop0At; rw [h]

theorem State.readByte_of_mem {s t : State} (h : t.mem = s.mem) (a : Nat) : t.readByte a = s.readByte a := by
  unfold State.readByte; rw [h]

/-- Reading a vector after one entry was set. -/
theorem vector_get_set {α : Type} {n : Nat} (v : Vector α n) (i j : Fin n) (x : α) :
    (v.set i x)[j] = if j = i then x else v[j] := by
  simp only [Fin.getElem_fin, Vector.getElem_set, Fin.ext_iff, eq_comm]

/-- What `x[r]` reads after a store to the register file: nothing is written to `x[0]` (R101). -/
theorem State.reg_putReg (s : State) (i : RegIdx) (v : Word) (r : RegIdx) :
    (s.putReg i v).reg r = if r = i ∧ r ≠ 0 then v else s.reg r := by
  unfold State.putReg
  by_cases hi : i = 0
  · rw [if_pos hi, if_neg (fun h => h.2 (h.1.trans hi))]
  · rw [if_neg hi]
    unfold State.reg
    by_cases hr : r = 0
    · simp [hr]
    · rw [if_neg hr, if_neg hr, vector_get_set]; simp [hr]

/-- What `x[r]` reads after a direct write (R13). -/
theorem State.reg_writeReg (s : State) (d : RegIdx) (v : Word) (r : RegIdx) :
    (s.writeReg d v).reg r = if r = d ∧ r ≠ 0 then v else s.reg r := by
  unfold State.writeReg
  by_cases hd : d = 0
  · by_cases hr : r = d
    · subst hr; simp [hd]
    · rw [if_pos hd, if_neg (fun h => hr h.1)]
  · rw [if_neg hd, ← State.reg_putReg]; rfl

/-- A direct write's effect on slot1: the override rule (R410). -/
theorem State.slot1_writeReg (s : State) (d : RegIdx) (v : Word) :
    (s.writeReg d v).slot1 = if d ≠ 0 ∧ s.slot1.target = d then { s.slot1 with modified := true } else s.slot1 := by
  unfold State.writeReg Slot.override
  by_cases hd : d = 0 <;> simp [hd]

/-- What a direct write notes (R410). -/
theorem State.directWritten_writeReg (s : State) (d : RegIdx) (v : Word) :
    (s.writeReg d v).directWritten = if d = 0 then s.directWritten else some d := by
  unfold State.writeReg
  by_cases hd : d = 0 <;> simp [hd]

theorem State.cop0At_setCop0 (s : State) (i : RegIdx) (v : Word) (j : RegIdx) :
    (s.setCop0 i v).cop0At j = if j = i then v else s.cop0At j := vector_get_set _ _ _ _

/-- What a COP0 register reads after an MTC0's write (R126). -/
theorem State.cop0At_writeCop0 (s : State) (i : RegIdx) (v : Word) (j : RegIdx) :
    (s.writeCop0 i v).cop0At j =
      if j = i then (s.cop0At i &&& ~~~ (writeMask i)) ||| (v &&& writeMask i) else s.cop0At j :=
  State.cop0At_setCop0 _ _ _ _

theorem State.cop0At_popModeStack (s : State) (j : RegIdx) :
    s.popModeStack.cop0At j = if j = srIdx then srPop (s.cop0At srIdx) else s.cop0At j :=
  State.cop0At_setCop0 _ _ _ _

/-! ### Taking an exception, register by register (R1210) -/

/-- What every COP0 register reads after exception entry. -/
theorem State.cop0At_enterException (s : State) (e : Exc) (j : RegIdx) :
    (s.enterException e).cop0At j =
      if j = srIdx then srPush (s.cop0At srIdx)
      else if j = epcIdx then epcOnEntry s.pc s.branchDelay
      else if j = causeIdx then causeOnEntry (s.cop0At causeIdx) e.code s.branchDelay
      else if j = badVaddrIdx then e.badAddress.getD (s.cop0At badVaddrIdx)
      else s.cop0At j := by
  have hs : srIdx ≠ epcIdx ∧ srIdx ≠ causeIdx ∧ srIdx ≠ badVaddrIdx ∧ causeIdx ≠ badVaddrIdx := by decide
  show State.cop0At (State.setCop0 (State.setCop0 (State.setCop0 _ _ _) _ _) _ _) j = _
  cases e <;>
    simp only [State.cop0At_setCop0, Exc.badAddress, Option.getD_some, Option.getD_none, if_neg hs.1, if_neg hs.2.1,
      if_neg hs.2.2.1, if_neg hs.2.2.2] <;>
    (by_cases h : j = badVaddrIdx <;> simp [h])

theorem State.pc_enterException (s : State) (e : Exc) :
    (s.enterException e).pc = vectorOf (s.cop0At srIdx) - 4#32 := by
  have hs : srIdx ≠ epcIdx ∧ srIdx ≠ causeIdx ∧ srIdx ≠ badVaddrIdx := by decide
  show vectorOf (State.cop0At _ srIdx) - 4#32 = _
  cases e <;> simp only [State.cop0At_setCop0, Exc.badAddress, if_neg hs.1, if_neg hs.2.1, if_neg hs.2.2]

/-- Exception entry changes COP0, `pc`, `branch` and `trapped`, and nothing else (R1202). -/
theorem State.enterException_eq (s : State) (e : Exc) :
    s.enterException e =
      { s with
        cop0 := (s.enterException e).cop0
        pc := vectorOf (s.cop0At srIdx) - 4#32
        branch := false
        trapped := true } := by
  have h := State.pc_enterException s e
  cases e <;> simp only [State.enterException, State.setCop0, Exc.badAddress] at h ⊢ <;> rw [h]

end Sys2Proof.Machine
end

