-- ==== Sys2Proof/Laws/Bus.lean ====
section
/-!
SUPPORT. What a bus access can do, said once for each: a read changes the draw counter and the diagnostics at most; a
store changes memory, the DMA registers and the outputs at most, keeps memory canonical, and leaves BIOS ROM alone.
-/

namespace Sys2Proof.Machine

/-! ### Masked addresses -/

/-- A masked address is below 0x20000000 (R201). -/
theorem maskAddress_lt (a : Word) : (maskAddress a).toNat < 0x20000000 := by
  unfold maskAddress
  rw [BitVec.toNat_and]
  exact lt_of_le_of_lt Nat.and_le_right (by decide)

/-! ### Reads -/

/-- What a read leaves: the same state but for the diagnostics and the draw counter (R225). -/
theorem State.busRead_spec {s s' : State} {addr v : Word} {width : Width} (h : s.busRead addr width = .ok (v, s')) :
    s' = { s with outputs := s'.outputs, draws := s'.draws } := by
  unfold State.busRead at h
  dsimp only at h
  split at h
  · cases h; rfl
  · cases h; rfl
  · cases h; rfl
  · cases h; rfl
  · split at h
    · injection h with h
      unfold State.readDmaWord at h
      split at h <;> (cases h; rfl)
    · cases h
  · split at h
    · cases h; rfl
    · cases h
  · injection h with h
    unfold State.readUnmapped at h
    cases width <;> (cases h; rfl)

/-- A word read is answered at every address (R211, R219). -/
theorem State.busRead_word_answers (s : State) (addr : Word) : ∃ v s', s.busRead addr .word = .ok (v, s') := by
  unfold State.busRead
  dsimp only
  split <;> exact ⟨_, _, rfl⟩

/-! ### Stores -/

theorem read_writeDevice_other {mem : Memory} {d : ByteDevice} {m : Word} {width : Width} {v : Word} {a : Nat}
    (h : a ∉ (List.range width.bytes).map (d.cell m.toNat)) : (writeDevice mem d m width v).read a = mem.read a := by
  refine Memory.read_writeAll_other _ _ (fun c hc => ?_) _
  obtain ⟨k, hk, rfl⟩ := mem_storeCells.mp hc
  rintro rfl
  exact h (List.mem_map.mpr ⟨k, List.mem_range.mpr hk, rfl⟩)

/-- What a store leaves. -/
theorem State.busWrite_spec {s s' : State} {addr v : Word} {width : Width} (h : s.busWrite addr width v = .ok s') :
    s' = { s with mem := s'.mem, dma := s'.dma, outputs := s'.outputs } ∧
    (s.mem.wf → s'.mem.wf) ∧ (s.mem.located → s'.mem.located) ∧
    ∀ a, a ∉ s.storedBytes addr width → s'.readByte a = s.readByte a := by
  unfold State.busWrite at h
  unfold State.storedBytes
  split at h
  · cases h; exact ⟨rfl, id, id, fun _ _ => rfl⟩
  · next hg =>
    rw [if_neg hg]
    dsimp only at h
    split at h <;> rename_i hr <;> rw [hr]
    · cases h
      exact ⟨rfl, fun h => wf_writeDevice h .., fun h => located_writeDevice h _ _ _
        (fun k => .inl (ByteDevice.holds_cell (by decide) _ _)), fun a ha => read_writeDevice_other ha⟩
    · cases h
      exact ⟨rfl, fun h => wf_writeDevice h .., fun h => located_writeDevice h _ _ _
        (fun k => .inr (.inl (ByteDevice.holds_cell (by decide) _ _))), fun a ha => read_writeDevice_other ha⟩
    · cases h; exact ⟨rfl, id, id, fun _ _ => rfl⟩
    · cases h; exact ⟨rfl, id, id, fun _ _ => rfl⟩
    · split at h
      · injection h with h
        unfold State.writeDmaWord at h
        split at h <;> (cases h; exact ⟨rfl, id, id, fun _ _ => rfl⟩)
      · cases h
    · split at h
      · cases h; exact ⟨rfl, id, id, fun _ _ => rfl⟩
      · cases h
    · cases h; exact ⟨rfl, id, id, fun _ _ => rfl⟩

/-- No store reaches a byte of BIOS ROM (R216). -/
theorem State.storedBytes_not_bios (s : State) (addr : Word) (width : Width) {a : Nat} (ha : bios.holds a) :
    a ∉ s.storedBytes addr width := by
  unfold State.storedBytes
  split
  · exact List.not_mem_nil
  · split
    · intro h
      obtain ⟨k, -, rfl⟩ := List.mem_map.mp h
      have := ByteDevice.holds_cell (d := ram) (by decide) (maskAddress addr).toNat k
      simp only [ByteDevice.holds, ram, bios] at this ha; omega
    · intro h
      obtain ⟨k, -, rfl⟩ := List.mem_map.mp h
      have := ByteDevice.holds_cell (d := scratchpad) (by decide) (maskAddress addr).toNat k
      simp only [ByteDevice.holds, scratchpad, bios] at this ha; omega
    all_goals exact List.not_mem_nil

/-- A word store is answered at every address (R222). -/
theorem State.busWrite_word_answers (s : State) (addr v : Word) : ∃ s', s.busWrite addr .word v = .ok s' := by
  unfold State.busWrite
  split
  · exact ⟨_, rfl⟩
  · dsimp only; split <;> exact ⟨_, rfl⟩

/-! ### Operations over the bus -/

/-- What a load that answers a next state did: it took AdEL, or it read once and filled slot0 (R800, R801). -/
theorem State.load_cases {s t : State} {rt : RegIdx} {addr : Word} {width : Width} {f : Word → Word}
    (h : s.load rt addr width f = .next t) :
    (width.aligned addr = false ∧ t = s.enterException (.adel addr)) ∨
    (width.aligned addr = true ∧ ∃ v s', s.busRead addr width = .ok (v, s') ∧ t = s'.delayLoad rt (f v)) := by
  unfold State.load at h
  split at h
  · next ha =>
    split at h
    · next v s' hr => cases h; exact .inr ⟨ha, v, s', hr, rfl⟩
    · cases h
  · next ha => cases h; exact .inl ⟨by simpa using ha, rfl⟩

/-- What a store that answers a next state did: it took AdES, or it stored once (R900, R901). -/
theorem State.store_cases {s t : State} {addr v : Word} {width : Width} (h : s.store addr width v = .next t) :
    (width.aligned addr = false ∧ t = s.enterException (.ades addr)) ∨
    (width.aligned addr = true ∧ s.busWrite addr width v = .ok t) := by
  unfold State.store at h
  split at h
  · next ha =>
    split at h
    · next s' hr => cases h; exact .inr ⟨ha, hr⟩
    · cases h
  · next ha => cases h; exact .inl ⟨by simpa using ha, rfl⟩

/-- The word that holds byte `ea` is aligned. -/
theorem aligned_wordBase (ea : Word) : Width.word.aligned (wordBase ea) = true := by
  unfold Width.aligned wordBase
  simp only [beq_iff_eq]
  rw [BitVec.and_assoc]
  simp

/-- What SWL or SWR did: it read the aligned word once and stored it merged once (R903). -/
theorem State.storePartial_cases {s t : State} {ea : Word} {merge : BitVec 2 → Word → Word}
    (h : s.storePartial ea merge = .next t) :
    ∃ mem s', s.busRead (wordBase ea) .word = .ok (mem, s') ∧
      s'.busWrite (wordBase ea) .word (merge (byteLane ea) mem) = .ok t := by
  unfold State.storePartial at h
  split at h
  · next mem s' hr =>
    rcases State.store_cases h with ⟨ha, -⟩ | ⟨-, hw⟩
    · rw [aligned_wordBase] at ha; cases ha
    · exact ⟨mem, s', hr, hw⟩
  · cases h

end Sys2Proof.Machine
end

