-- ==== Sys2Proof/Laws/Decode.lean ====
section
/-!
SUPPORT. Encoded words, field by field: each field of R301 read back from each format of R302.
-/

namespace Sys2Proof

theorem toNat_append {m n : Nat} (a : BitVec m) (b : BitVec n) : (a ++ b).toNat = a.toNat * 2 ^ n + b.toNat := by
  rw [BitVec.toNat_append, Nat.shiftLeft_eq, mul_comm, Nat.two_pow_add_eq_or_of_lt b.isLt]

@[simp] theorem regOfBits_bitsOfReg (r : RegIdx) : regOfBits (bitsOfReg r) = r := rfl

@[simp] theorem bitsOfReg_regOfBits (b : BitVec 5) : bitsOfReg (regOfBits b) = b := rfl

/-! ### encodeSpecial -/

@[simp] theorem opOf_encodeSpecial (rs rt rd : RegIdx) (sa : Nat) (funct : BitVec 6) : opOf (encodeSpecial rs rt rd sa funct) = 0#6 := by
  apply BitVec.eq_of_toNat_eq
  simp only [opOf, encodeSpecial, BitVec.extractLsb'_toNat, toNat_append, Nat.shiftRight_eq_div_pow]
  have := (bitsOfReg rs).isLt
  have := (bitsOfReg rt).isLt
  have := (bitsOfReg rd).isLt
  have := (BitVec.ofNat 5 sa).isLt
  have := funct.isLt
  norm_num at *
  try omega

@[simp] theorem functOf_encodeSpecial (rs rt rd : RegIdx) (sa : Nat) (funct : BitVec 6) : functOf (encodeSpecial rs rt rd sa funct) = funct := by
  apply BitVec.eq_of_toNat_eq
  simp only [functOf, encodeSpecial, BitVec.extractLsb'_toNat, toNat_append, Nat.shiftRight_eq_div_pow]
  have := (bitsOfReg rs).isLt
  have := (bitsOfReg rt).isLt
  have := (bitsOfReg rd).isLt
  have := (BitVec.ofNat 5 sa).isLt
  have := funct.isLt
  norm_num at *
  try omega

@[simp] theorem rsBits_encodeSpecial (rs rt rd : RegIdx) (sa : Nat) (funct : BitVec 6) : rsBits (encodeSpecial rs rt rd sa funct) = bitsOfReg rs := by
  apply BitVec.eq_of_toNat_eq
  simp only [rsBits, encodeSpecial, BitVec.extractLsb'_toNat, toNat_append, Nat.shiftRight_eq_div_pow]
  have := (bitsOfReg rs).isLt
  have := (bitsOfReg rt).isLt
  have := (bitsOfReg rd).isLt
  have := (BitVec.ofNat 5 sa).isLt
  have := funct.isLt
  norm_num at *
  try omega

@[simp] theorem rtBits_encodeSpecial (rs rt rd : RegIdx) (sa : Nat) (funct : BitVec 6) : rtBits (encodeSpecial rs rt rd sa funct) = bitsOfReg rt := by
  apply BitVec.eq_of_toNat_eq
  simp only [rtBits, encodeSpecial, BitVec.extractLsb'_toNat, toNat_append, Nat.shiftRight_eq_div_pow]
  have := (bitsOfReg rs).isLt
  have := (bitsOfReg rt).isLt
  have := (bitsOfReg rd).isLt
  have := (BitVec.ofNat 5 sa).isLt
  have := funct.isLt
  norm_num at *
  try omega

@[simp] theorem rdBits_encodeSpecial (rs rt rd : RegIdx) (sa : Nat) (funct : BitVec 6) : rdBits (encodeSpecial rs rt rd sa funct) = bitsOfReg rd := by
  apply BitVec.eq_of_toNat_eq
  simp only [rdBits, encodeSpecial, BitVec.extractLsb'_toNat, toNat_append, Nat.shiftRight_eq_div_pow]
  have := (bitsOfReg rs).isLt
  have := (bitsOfReg rt).isLt
  have := (bitsOfReg rd).isLt
  have := (BitVec.ofNat 5 sa).isLt
  have := funct.isLt
  norm_num at *
  try omega

@[simp] theorem saBits_encodeSpecial (rs rt rd : RegIdx) (sa : Nat) (funct : BitVec 6) : saBits (encodeSpecial rs rt rd sa funct) = BitVec.ofNat 5 sa := by
  apply BitVec.eq_of_toNat_eq
  simp only [saBits, encodeSpecial, BitVec.extractLsb'_toNat, toNat_append, Nat.shiftRight_eq_div_pow]
  have := (bitsOfReg rs).isLt
  have := (bitsOfReg rt).isLt
  have := (bitsOfReg rd).isLt
  have := (BitVec.ofNat 5 sa).isLt
  have := funct.isLt
  norm_num at *
  try omega

/-! ### encodeCode -/

@[simp] theorem opOf_encodeCode (code : BitVec 20) (funct : BitVec 6) : opOf (encodeCode code funct) = 0#6 := by
  apply BitVec.eq_of_toNat_eq
  simp only [opOf, encodeCode, BitVec.extractLsb'_toNat, toNat_append, Nat.shiftRight_eq_div_pow]
  have := code.isLt
  have := funct.isLt
  norm_num at *
  try omega

@[simp] theorem functOf_encodeCode (code : BitVec 20) (funct : BitVec 6) : functOf (encodeCode code funct) = funct := by
  apply BitVec.eq_of_toNat_eq
  simp only [functOf, encodeCode, BitVec.extractLsb'_toNat, toNat_append, Nat.shiftRight_eq_div_pow]
  have := code.isLt
  have := funct.isLt
  norm_num at *
  try omega

@[simp] theorem codeOf_encodeCode (code : BitVec 20) (funct : BitVec 6) : codeOf (encodeCode code funct) = code := by
  apply BitVec.eq_of_toNat_eq
  simp only [codeOf, encodeCode, BitVec.extractLsb'_toNat, toNat_append, Nat.shiftRight_eq_div_pow]
  have := code.isLt
  have := funct.isLt
  norm_num at *
  try omega

/-! ### encodeImm -/

@[simp] theorem opOf_encodeImm (op : BitVec 6) (rs rt : RegIdx) (imm : BitVec 16) : opOf (encodeImm op rs rt imm) = op := by
  apply BitVec.eq_of_toNat_eq
  simp only [opOf, encodeImm, BitVec.extractLsb'_toNat, toNat_append, Nat.shiftRight_eq_div_pow]
  have := op.isLt
  have := (bitsOfReg rs).isLt
  have := (bitsOfReg rt).isLt
  have := imm.isLt
  norm_num at *
  try omega

@[simp] theorem rsBits_encodeImm (op : BitVec 6) (rs rt : RegIdx) (imm : BitVec 16) : rsBits (encodeImm op rs rt imm) = bitsOfReg rs := by
  apply BitVec.eq_of_toNat_eq
  simp only [rsBits, encodeImm, BitVec.extractLsb'_toNat, toNat_append, Nat.shiftRight_eq_div_pow]
  have := op.isLt
  have := (bitsOfReg rs).isLt
  have := (bitsOfReg rt).isLt
  have := imm.isLt
  norm_num at *
  try omega

@[simp] theorem rtBits_encodeImm (op : BitVec 6) (rs rt : RegIdx) (imm : BitVec 16) : rtBits (encodeImm op rs rt imm) = bitsOfReg rt := by
  apply BitVec.eq_of_toNat_eq
  simp only [rtBits, encodeImm, BitVec.extractLsb'_toNat, toNat_append, Nat.shiftRight_eq_div_pow]
  have := op.isLt
  have := (bitsOfReg rs).isLt
  have := (bitsOfReg rt).isLt
  have := imm.isLt
  norm_num at *
  try omega

@[simp] theorem immOf_encodeImm (op : BitVec 6) (rs rt : RegIdx) (imm : BitVec 16) : immOf (encodeImm op rs rt imm) = imm := by
  apply BitVec.eq_of_toNat_eq
  simp only [immOf, encodeImm, BitVec.extractLsb'_toNat, toNat_append, Nat.shiftRight_eq_div_pow]
  have := op.isLt
  have := (bitsOfReg rs).isLt
  have := (bitsOfReg rt).isLt
  have := imm.isLt
  norm_num at *
  try omega

/-! ### encodeJump -/

@[simp] theorem opOf_encodeJump (op : BitVec 6) (target : BitVec 26) : opOf (encodeJump op target) = op := by
  apply BitVec.eq_of_toNat_eq
  simp only [opOf, encodeJump, BitVec.extractLsb'_toNat, toNat_append, Nat.shiftRight_eq_div_pow]
  have := op.isLt
  have := target.isLt
  norm_num at *
  try omega

@[simp] theorem targetOf_encodeJump (op : BitVec 6) (target : BitVec 26) : targetOf (encodeJump op target) = target := by
  apply BitVec.eq_of_toNat_eq
  simp only [targetOf, encodeJump, BitVec.extractLsb'_toNat, toNat_append, Nat.shiftRight_eq_div_pow]
  have := op.isLt
  have := target.isLt
  norm_num at *
  try omega

/-! ### encodeRegimm -/

@[simp] theorem opOf_encodeRegimm (rs : RegIdx) (sel : BitVec 5) (imm : BitVec 16) : opOf (encodeRegimm rs sel imm) = 0x01#6 := by
  apply BitVec.eq_of_toNat_eq
  simp only [opOf, encodeRegimm, BitVec.extractLsb'_toNat, toNat_append, Nat.shiftRight_eq_div_pow]
  have := (bitsOfReg rs).isLt
  have := sel.isLt
  have := imm.isLt
  norm_num at *
  try omega

@[simp] theorem rsBits_encodeRegimm (rs : RegIdx) (sel : BitVec 5) (imm : BitVec 16) : rsBits (encodeRegimm rs sel imm) = bitsOfReg rs := by
  apply BitVec.eq_of_toNat_eq
  simp only [rsBits, encodeRegimm, BitVec.extractLsb'_toNat, toNat_append, Nat.shiftRight_eq_div_pow]
  have := (bitsOfReg rs).isLt
  have := sel.isLt
  have := imm.isLt
  norm_num at *
  try omega

@[simp] theorem rtBits_encodeRegimm (rs : RegIdx) (sel : BitVec 5) (imm : BitVec 16) : rtBits (encodeRegimm rs sel imm) = sel := by
  apply BitVec.eq_of_toNat_eq
  simp only [rtBits, encodeRegimm, BitVec.extractLsb'_toNat, toNat_append, Nat.shiftRight_eq_div_pow]
  have := (bitsOfReg rs).isLt
  have := sel.isLt
  have := imm.isLt
  norm_num at *
  try omega

@[simp] theorem immOf_encodeRegimm (rs : RegIdx) (sel : BitVec 5) (imm : BitVec 16) : immOf (encodeRegimm rs sel imm) = imm := by
  apply BitVec.eq_of_toNat_eq
  simp only [immOf, encodeRegimm, BitVec.extractLsb'_toNat, toNat_append, Nat.shiftRight_eq_div_pow]
  have := (bitsOfReg rs).isLt
  have := sel.isLt
  have := imm.isLt
  norm_num at *
  try omega

/-! ### encodeCop0Move -/

@[simp] theorem opOf_encodeCop0Move (sel : BitVec 5) (rt cr : RegIdx) : opOf (encodeCop0Move sel rt cr) = 0x10#6 := by
  apply BitVec.eq_of_toNat_eq
  simp only [opOf, encodeCop0Move, BitVec.extractLsb'_toNat, toNat_append, Nat.shiftRight_eq_div_pow]
  have := sel.isLt
  have := (bitsOfReg rt).isLt
  have := (bitsOfReg cr).isLt
  norm_num at *
  try omega

@[simp] theorem rsBits_encodeCop0Move (sel : BitVec 5) (rt cr : RegIdx) : rsBits (encodeCop0Move sel rt cr) = sel := by
  apply BitVec.eq_of_toNat_eq
  simp only [rsBits, encodeCop0Move, BitVec.extractLsb'_toNat, toNat_append, Nat.shiftRight_eq_div_pow]
  have := sel.isLt
  have := (bitsOfReg rt).isLt
  have := (bitsOfReg cr).isLt
  norm_num at *
  try omega

@[simp] theorem rtBits_encodeCop0Move (sel : BitVec 5) (rt cr : RegIdx) : rtBits (encodeCop0Move sel rt cr) = bitsOfReg rt := by
  apply BitVec.eq_of_toNat_eq
  simp only [rtBits, encodeCop0Move, BitVec.extractLsb'_toNat, toNat_append, Nat.shiftRight_eq_div_pow]
  have := sel.isLt
  have := (bitsOfReg rt).isLt
  have := (bitsOfReg cr).isLt
  norm_num at *
  try omega

@[simp] theorem rdBits_encodeCop0Move (sel : BitVec 5) (rt cr : RegIdx) : rdBits (encodeCop0Move sel rt cr) = bitsOfReg cr := by
  apply BitVec.eq_of_toNat_eq
  simp only [rdBits, encodeCop0Move, BitVec.extractLsb'_toNat, toNat_append, Nat.shiftRight_eq_div_pow]
  have := sel.isLt
  have := (bitsOfReg rt).isLt
  have := (bitsOfReg cr).isLt
  norm_num at *
  try omega

/-- Bit 25 of a word is the top bit of `w[25:21]`, which tells COP0 moves from COP0 operations (R323). -/
theorem bit25_eq (w : Word) : w.getLsbD 25 = (rsBits w).getLsbD 4 := by
  simp [rsBits]

/-- The four bytes of a word make the word again (R202). -/
theorem wordOfBytes_byteOfWord (v : Word) :
    wordOfBytes (byteOfWord v 0) (byteOfWord v 1) (byteOfWord v 2) (byteOfWord v 3) = v := by
  apply BitVec.eq_of_toNat_eq
  simp only [wordOfBytes, byteOfWord, BitVec.extractLsb'_toNat, toNat_append, Nat.shiftRight_eq_div_pow]
  have := v.isLt
  omega

end Sys2Proof
end

