-- ==== Sys2Proof/Laws/Exec.lean ====
section
/-!
SUPPORT. Everything an instruction can do, said once: exec_effect turns "exec answers next t" into one of nine effects,
each an equation for `t`. Invariants and frames are proved from it.
-/

namespace Sys2Proof.Machine

/-- The effects an instruction can have on the state its tick hands it. -/
inductive Effect (s t : State) : Prop where
  /-- A direct write (R13). -/
  | direct (d : RegIdx) (v : Word) (h : t = s.writeReg d v)
  /-- `hi` and `lo` (R104). -/
  | hiLo (h l : Word) (heq : t = { s with hi := h, lo := l })
  /-- A load or MFC0: slot0, and what a read leaves (R800, R1110). -/
  | delayed (rt : RegIdx) (v : Word) (outs : List Event) (n : Nat)
      (h : t = ({ s with outputs := outs, draws := n } : State).delayLoad rt v)
  /-- A branch or jump without link (R1000). -/
  | branch (c : Bool) (target : Word) (h : t = s.branchIf c target)
  /-- A branch or jump with link (R1002). -/
  | link (d : RegIdx) (v : Word) (c : Bool) (target : Word) (h : t = (s.writeReg d v).branchIf c target)
  /-- A store (R900). -/
  | stored (addr : Word) (width : Width) (mem : Memory) (dma : DmaRegs) (outs : List Event) (n : Nat)
      (h : t = { s with mem := mem, dma := dma, outputs := outs, draws := n })
      (hwf : s.mem.wf → mem.wf) (hloc : s.mem.located → mem.located)
      (hother : ∀ a, a ∉ s.storedBytes addr width → mem.read a = s.mem.read a)
  /-- MTC0 (R1111). -/
  | cop0 (i : RegIdx) (v : Word) (h : t = s.writeCop0 i v)
  /-- RFE (R1122). -/
  | popped (h : t = s.popModeStack)
  /-- Exception entry (R1210). -/
  | trapped (e : Exc) (h : t = s.enterException e)

theorem next_injective {s t : State} (h : (Host.Outcome.next s : Result) = .next t) : t = s := by
  injection h with h; exact h.symm

theorem Effect.ofLoad {s t : State} {rt : RegIdx} {addr : Word} {width : Width} {f : Word → Word}
    (h : s.load rt addr width f = .next t) : Effect s t := by
  rcases State.load_cases h with ⟨-, rfl⟩ | ⟨-, v, s', hr, rfl⟩
  · exact .trapped _ rfl
  · rw [State.busRead_spec hr]; exact .delayed rt (f v) _ _ rfl

theorem Effect.ofBusWrite {s s' t : State} {outs : List Event} {n : Nat} {addr v : Word} {width : Width}
    (hs : s' = { s with outputs := outs, draws := n }) (h : s'.busWrite addr width v = .ok t) : Effect s t := by
  obtain ⟨heq, hwf, hloc, hother⟩ := State.busWrite_spec h
  subst hs
  rw [heq]
  exact .stored addr width _ _ _ _ rfl hwf hloc hother

theorem Effect.ofStore {s t : State} {addr v : Word} {width : Width} (h : s.store addr width v = .next t) :
    Effect s t := by
  rcases State.store_cases h with ⟨-, rfl⟩ | ⟨-, hw⟩
  · exact .trapped _ rfl
  · exact .ofBusWrite (outs := s.outputs) (n := s.draws) rfl hw

theorem Effect.ofStorePartial {s t : State} {ea : Word} {merge : BitVec 2 → Word → Word}
    (h : s.storePartial ea merge = .next t) : Effect s t := by
  obtain ⟨mem, s', hr, hw⟩ := State.storePartial_cases h
  exact .ofBusWrite (State.busRead_spec hr) hw

theorem State.recordBranch_writeReg (s : State) (target : Word) (d : RegIdx) (v : Word) :
    (s.recordBranch target).writeReg d v = (s.writeReg d v).branchIf true target := by
  unfold State.writeReg State.branchIf State.putReg State.recordBranch
  split <;> rfl

theorem Effect.ofTrapIf {s t : State} {c : Bool} {e : Exc} {d : RegIdx} {v : Word}
    (h : (if c then Host.Outcome.next (s.enterException e) else .next (s.writeReg d v) : Result) = .next t) :
    Effect s t := by
  split at h <;> cases h
  · exact .trapped _ rfl
  · exact .direct _ _ rfl

/-- Everything an instruction that answers a next state can have done. -/
theorem exec_effect (i : Instr) (s t : State) (h : exec i s = .next t) : Effect s t := by
  cases i with
  | add rd rs rt => rw [exec, execAdd] at h; exact .ofTrapIf h
  | sub rd rs rt => rw [exec, execSub] at h; exact .ofTrapIf h
  | addi rt rs imm => rw [exec, execAddi] at h; exact .ofTrapIf h
  | mult rs rt => rw [exec, execMult] at h; exact .hiLo _ _ (next_injective h)
  | multu rs rt => rw [exec, execMultu] at h; exact .hiLo _ _ (next_injective h)
  | div rs rt => rw [exec, execDiv] at h; exact .hiLo _ _ (next_injective h)
  | divu rs rt => rw [exec, execDivu] at h; exact .hiLo _ _ (next_injective h)
  | mthi rs => rw [exec, execMthi] at h; exact .hiLo _ s.lo (next_injective h)
  | mtlo rs => rw [exec, execMtlo] at h; exact .hiLo s.hi _ (next_injective h)
  | lb rt rs imm => rw [exec, execLb] at h; exact .ofLoad h
  | lbu rt rs imm => rw [exec, execLbu] at h; exact .ofLoad h
  | lh rt rs imm => rw [exec, execLh] at h; exact .ofLoad h
  | lhu rt rs imm => rw [exec, execLhu] at h; exact .ofLoad h
  | lw rt rs imm => rw [exec, execLw] at h; exact .ofLoad h
  | lwl rt rs imm => rw [exec, execLwl] at h; exact .ofLoad h
  | lwr rt rs imm => rw [exec, execLwr] at h; exact .ofLoad h
  | sb rt rs imm => rw [exec, execSb] at h; exact .ofStore h
  | sh rt rs imm => rw [exec, execSh] at h; exact .ofStore h
  | sw rt rs imm => rw [exec, execSw] at h; exact .ofStore h
  | swl rt rs imm => rw [exec, execSwl] at h; exact .ofStorePartial h
  | swr rt rs imm => rw [exec, execSwr] at h; exact .ofStorePartial h
  | beq rs rt imm => rw [exec, execBeq] at h; exact .branch _ _ (next_injective h)
  | bne rs rt imm => rw [exec, execBne] at h; exact .branch _ _ (next_injective h)
  | blez rs imm => rw [exec, execBlez] at h; exact .branch _ _ (next_injective h)
  | bgtz rs imm => rw [exec, execBgtz] at h; exact .branch _ _ (next_injective h)
  | bltz rs imm => rw [exec, execBltz] at h; exact .branch _ _ (next_injective h)
  | bgez rs imm => rw [exec, execBgez] at h; exact .branch _ _ (next_injective h)
  | bltzal rs imm => rw [exec, execBltzal] at h; exact .link _ _ _ _ (next_injective h)
  | bgezal rs imm => rw [exec, execBgezal] at h; exact .link _ _ _ _ (next_injective h)
  | j target => rw [exec, execJ] at h; exact .branch true _ (next_injective h)
  | jal target => rw [exec, execJal, State.recordBranch_writeReg] at h; exact .link _ _ true _ (next_injective h)
  | jr rs => rw [exec, execJr] at h; exact .branch true _ (next_injective h)
  | jalr rd rs => rw [exec, execJalr] at h; exact .link _ _ true _ (next_injective h)
  | syscall code => rw [exec, execSyscall] at h; exact .trapped _ (next_injective h)
  | brk code => rw [exec, execBreak] at h; exact .trapped _ (next_injective h)
  | mfc0 rt cr => rw [exec, execMfc0] at h; exact .delayed rt _ s.outputs s.draws (next_injective h)
  | mtc0 rt cr => rw [exec, execMtc0] at h; exact .cop0 _ _ (next_injective h)
  | rfe => rw [exec, execRfe] at h; exact .popped (next_injective h)
  | addu a b c => rw [exec, execAddu] at h; exact .direct _ _ (next_injective h)
  | subu a b c => rw [exec, execSubu] at h; exact .direct _ _ (next_injective h)
  | slt a b c => rw [exec, execSlt] at h; exact .direct _ _ (next_injective h)
  | sltu a b c => rw [exec, execSltu] at h; exact .direct _ _ (next_injective h)
  | addiu a b c => rw [exec, execAddiu] at h; exact .direct _ _ (next_injective h)
  | slti a b c => rw [exec, execSlti] at h; exact .direct _ _ (next_injective h)
  | sltiu a b c => rw [exec, execSltiu] at h; exact .direct _ _ (next_injective h)
  | mfhi rd => rw [exec, execMfhi] at h; exact .direct _ _ (next_injective h)
  | mflo rd => rw [exec, execMflo] at h; exact .direct _ _ (next_injective h)
  | and a b c => rw [exec, execAnd] at h; exact .direct _ _ (next_injective h)
  | or a b c => rw [exec, execOr] at h; exact .direct _ _ (next_injective h)
  | xor a b c => rw [exec, execXor] at h; exact .direct _ _ (next_injective h)
  | nor a b c => rw [exec, execNor] at h; exact .direct _ _ (next_injective h)
  | andi a b c => rw [exec, execAndi] at h; exact .direct _ _ (next_injective h)
  | ori a b c => rw [exec, execOri] at h; exact .direct _ _ (next_injective h)
  | xori a b c => rw [exec, execXori] at h; exact .direct _ _ (next_injective h)
  | lui rt imm => rw [exec, execLui] at h; exact .direct _ _ (next_injective h)
  | sll rd rt sa => rw [exec, execSll] at h; exact .direct _ _ (next_injective h)
  | srl rd rt sa => rw [exec, execSrl] at h; exact .direct _ _ (next_injective h)
  | sra rd rt sa => rw [exec, execSra] at h; exact .direct _ _ (next_injective h)
  | sllv a b c => rw [exec, execSllv] at h; exact .direct _ _ (next_injective h)
  | srlv a b c => rw [exec, execSrlv] at h; exact .direct _ _ (next_injective h)
  | srav a b c => rw [exec, execSrav] at h; exact .direct _ _ (next_injective h)

end Sys2Proof.Machine
end

