-- ==== Sys2Proof/Laws/Flags.lean ====
section
/-!
SUPPORT. What the overflow tests, the comparisons and the sign extension say of the values as integers (41_arith.md R511).
-/

namespace Sys2Proof.Machine

/-- Bit 31 is the sign. -/
theorem getLsbD_31 (x : Word) : x.getLsbD 31 = decide (x.toInt < 0) := by
  rw [← BitVec.msb_eq_toInt]; simp [BitVec.msb, BitVec.getMsbD]

/-- The addition test holds exactly when the exact sum leaves the signed range (R511). -/
theorem addOverflows_iff (a b : Word) :
    addOverflows a b = true ↔ a.toInt + b.toInt < -2147483648 ∨ 2147483648 ≤ a.toInt + b.toInt := by
  have ha := a.isLt
  have hb := b.isLt
  simp only [addOverflows, BitVec.getLsbD_and, BitVec.getLsbD_xor]
  simp only [getLsbD_31, BitVec.toInt_add, Int.bmod_def]
  rw [BitVec.toInt_eq_toNat_cond, BitVec.toInt_eq_toNat_cond]
  by_cases h1 : 2 * a.toNat < 2 ^ 32 <;> by_cases h2 : 2 * b.toNat < 2 ^ 32 <;>
    simp only [h1, h2, if_true, if_false] <;> simp <;> split <;> omega

/-- The subtraction test holds exactly when the exact difference leaves the signed range (R511). -/
theorem subOverflows_iff (a b : Word) :
    subOverflows a b = true ↔ a.toInt - b.toInt < -2147483648 ∨ 2147483648 ≤ a.toInt - b.toInt := by
  have ha := a.isLt
  have hb := b.isLt
  simp only [subOverflows, BitVec.getLsbD_and, BitVec.getLsbD_xor]
  simp only [getLsbD_31, BitVec.toInt_sub, Int.bmod_def]
  rw [BitVec.toInt_eq_toNat_cond, BitVec.toInt_eq_toNat_cond]
  by_cases h1 : 2 * a.toNat < 2 ^ 32 <;> by_cases h2 : 2 * b.toNat < 2 ^ 32 <;>
    simp only [h1, h2, if_true, if_false] <;> simp <;> split <;> omega

theorem toInt_sext16 (imm : BitVec 16) : (sext16 imm).toInt = imm.toInt :=
  BitVec.toInt_signExtend_of_le (by decide)

theorem wordOfBool_lessSigned (a b : Word) :
    wordOfBool (lessSigned a b) = if a.toInt < b.toInt then 1#32 else 0#32 := by
  simp [wordOfBool, lessSigned]

theorem wordOfBool_lessUnsigned (a b : Word) :
    wordOfBool (lessUnsigned a b) = if a.toNat < b.toNat then 1#32 else 0#32 := by
  simp [wordOfBool, lessUnsigned]

/-- A shift count is the register's value modulo 32 (43_logic_shift.md R710). -/
theorem shiftCount_eq (v : Word) : shiftCount v = v.toNat % 32 := by
  unfold shiftCount
  rw [BitVec.toNat_and]
  exact Nat.and_two_pow_sub_one_eq_mod v.toNat 5

end Sys2Proof.Machine
end

