-- ==== Sys2Proof/Laws/Launch.lean ====
section
/-!
SUPPORT. What a launch can do, said once: when there is a start state, that a launch without one has no run and no
observation, and that a side-load of a file that fits is always made (70_reset_and_hazards.md R1302, R1306).
-/

namespace Sys2Proof.Machine

theorem exeFits_iff {unit : SizeUnit} {file : List Byte} :
    exeFits unit file = true ↔ payloadOffset + payloadBytes unit (le32 file 0x1C) ≤ file.length := by
  simp [exeFits]

/-- There is a start state exactly where every file is there in full, and it is the reset state (R1221). -/
theorem Launch.start_eq_some {p : Launch} {s : State} :
    p.start = some s ↔
      p.biosImage.length = bios.size ∧ (∀ file, p.exeImage = some file → exeFits p.sizeUnit file = true) ∧
      State.resetWithBios p.biosImage = s := by
  unfold Launch.start Launch.complete
  cases p.exeImage <;> simp [and_assoc]

/-- A launch whose executable is short has no start state, whenever it is applied (R1221, R1306). -/
theorem Launch.start_none_of_short {p : Launch} {file : List Byte} (hp : p.exeImage = some file)
    (h : exeFits p.sizeUnit file = false) : p.start = none := by
  cases hs : p.start with
  | none => rfl
  | some s => rw [(Launch.start_eq_some.mp hs).2.1 file hp] at h; cases h

/-- A launch without a start state has no run (R21, R1302). -/
theorem Launch.run_of_start_none {p : Launch} (h : p.start = none) (n : Nat) : p.run n = none := by
  unfold Launch.run; rw [h]

/-- A launch without a start state has no observation (R1340). -/
theorem Launch.observe_of_start_none {p : Launch} (h : p.start = none) (stop : Word) (fuel : Nat) :
    p.observe stop fuel = none := by
  unfold Launch.observe; rw [h]

/-- A file that fits is side-loaded, and only such a file (R1306). -/
theorem State.sideLoad_isSome (s : State) (unit : SizeUnit) (file : List Byte) :
    (s.sideLoad unit file).isSome = exeFits unit file := by
  unfold State.sideLoad; cases exeFits unit file <;> rfl

/-- The host's action never fails in a launch that has a start state. -/
theorem Launch.beforeTick_isSome {p : Launch} {r : State} (h : p.start = some r) (k : Nat) (s : State) :
    (p.beforeTick k s).isSome = true := by
  have hf := (Launch.start_eq_some.mp h).2.1
  unfold Launch.beforeTick
  split
  · next file he =>
    split
    · rw [State.sideLoad_isSome]; exact hf file he
    · rfl
  · rfl

/-- A launch that has a start state has a run of every length, to a state or to a stop. -/
theorem Launch.runFrom_isSome {p : Launch} {r : State} (h : p.start = some r) (n k : Nat) (s : State) :
    (p.runFrom n k s).isSome = true := by
  induction n generalizing k s with
  | zero => rfl
  | succ n ih =>
    obtain ⟨s', hs'⟩ := Option.isSome_iff_exists.mp (Launch.beforeTick_isSome h k s)
    unfold Launch.runFrom
    rw [hs']
    dsimp only
    split
    · exact ih _ _
    · rfl
    · rfl

end Sys2Proof.Machine
end

