-- ==== Sys2Proof/Laws/PerInstr.lean ====
section
/-!
SUPPORT. One lemma per constructor of Instr: the encoder's word lies in the instruction's row of spec/opcode_table.json
(30_encoding.md R302, R320 to R323).
-/

namespace Sys2Proof

/-! ### The masks of the table, as fields -/

theorem and_mask_special (w : Word) :
    w &&& 0xFC00003F#32 = ((opOf w).setWidth 32 <<< 26) ||| (functOf w).setWidth 32 := by
  apply BitVec.eq_of_getLsbD_eq
  intro i hi
  interval_cases i <;> simp [opOf, functOf]

theorem and_mask_op (w : Word) : w &&& 0xFC000000#32 = (opOf w).setWidth 32 <<< 26 := by
  apply BitVec.eq_of_getLsbD_eq
  intro i hi
  interval_cases i <;> simp [opOf]

theorem and_mask_regimm (w : Word) :
    w &&& 0xFC1F0000#32 = ((opOf w).setWidth 32 <<< 26) ||| ((rtBits w).setWidth 32 <<< 16) := by
  apply BitVec.eq_of_getLsbD_eq
  intro i hi
  interval_cases i <;> simp [opOf, rtBits]

theorem and_mask_cop0 (w : Word) :
    w &&& 0xFFE00000#32 = ((opOf w).setWidth 32 <<< 26) ||| ((rsBits w).setWidth 32 <<< 21) := by
  apply BitVec.eq_of_getLsbD_eq
  intro i hi
  interval_cases i <;> simp [opOf, rsBits]

namespace Laws.TableWord

/-- The word of `i` is a word of `i`'s row. -/
def Statement : Instr → Prop := fun i => (tableRow i).matches (encode i) = true

theorem add (rd : RegIdx) (rs : RegIdx) (rt : RegIdx) : Statement (.add rd rs rt) := by
  simp [Statement, TableRow.matches, tableRow, encode, and_mask_special]

theorem addu (rd : RegIdx) (rs : RegIdx) (rt : RegIdx) : Statement (.addu rd rs rt) := by
  simp [Statement, TableRow.matches, tableRow, encode, and_mask_special]

theorem sub (rd : RegIdx) (rs : RegIdx) (rt : RegIdx) : Statement (.sub rd rs rt) := by
  simp [Statement, TableRow.matches, tableRow, encode, and_mask_special]

theorem subu (rd : RegIdx) (rs : RegIdx) (rt : RegIdx) : Statement (.subu rd rs rt) := by
  simp [Statement, TableRow.matches, tableRow, encode, and_mask_special]

theorem slt (rd : RegIdx) (rs : RegIdx) (rt : RegIdx) : Statement (.slt rd rs rt) := by
  simp [Statement, TableRow.matches, tableRow, encode, and_mask_special]

theorem sltu (rd : RegIdx) (rs : RegIdx) (rt : RegIdx) : Statement (.sltu rd rs rt) := by
  simp [Statement, TableRow.matches, tableRow, encode, and_mask_special]

theorem addi (rt : RegIdx) (rs : RegIdx) (imm : BitVec 16) : Statement (.addi rt rs imm) := by
  simp [Statement, TableRow.matches, tableRow, encode, and_mask_op]

theorem addiu (rt : RegIdx) (rs : RegIdx) (imm : BitVec 16) : Statement (.addiu rt rs imm) := by
  simp [Statement, TableRow.matches, tableRow, encode, and_mask_op]

theorem slti (rt : RegIdx) (rs : RegIdx) (imm : BitVec 16) : Statement (.slti rt rs imm) := by
  simp [Statement, TableRow.matches, tableRow, encode, and_mask_op]

theorem sltiu (rt : RegIdx) (rs : RegIdx) (imm : BitVec 16) : Statement (.sltiu rt rs imm) := by
  simp [Statement, TableRow.matches, tableRow, encode, and_mask_op]

theorem mult (rs : RegIdx) (rt : RegIdx) : Statement (.mult rs rt) := by
  simp [Statement, TableRow.matches, tableRow, encode, and_mask_special]

theorem multu (rs : RegIdx) (rt : RegIdx) : Statement (.multu rs rt) := by
  simp [Statement, TableRow.matches, tableRow, encode, and_mask_special]

theorem div (rs : RegIdx) (rt : RegIdx) : Statement (.div rs rt) := by
  simp [Statement, TableRow.matches, tableRow, encode, and_mask_special]

theorem divu (rs : RegIdx) (rt : RegIdx) : Statement (.divu rs rt) := by
  simp [Statement, TableRow.matches, tableRow, encode, and_mask_special]

theorem mfhi (rd : RegIdx) : Statement (.mfhi rd) := by
  simp [Statement, TableRow.matches, tableRow, encode, and_mask_special]

theorem mflo (rd : RegIdx) : Statement (.mflo rd) := by
  simp [Statement, TableRow.matches, tableRow, encode, and_mask_special]

theorem mthi (rs : RegIdx) : Statement (.mthi rs) := by
  simp [Statement, TableRow.matches, tableRow, encode, and_mask_special]

theorem mtlo (rs : RegIdx) : Statement (.mtlo rs) := by
  simp [Statement, TableRow.matches, tableRow, encode, and_mask_special]

theorem and (rd : RegIdx) (rs : RegIdx) (rt : RegIdx) : Statement (.and rd rs rt) := by
  simp [Statement, TableRow.matches, tableRow, encode, and_mask_special]

theorem or (rd : RegIdx) (rs : RegIdx) (rt : RegIdx) : Statement (.or rd rs rt) := by
  simp [Statement, TableRow.matches, tableRow, encode, and_mask_special]

theorem xor (rd : RegIdx) (rs : RegIdx) (rt : RegIdx) : Statement (.xor rd rs rt) := by
  simp [Statement, TableRow.matches, tableRow, encode, and_mask_special]

theorem nor (rd : RegIdx) (rs : RegIdx) (rt : RegIdx) : Statement (.nor rd rs rt) := by
  simp [Statement, TableRow.matches, tableRow, encode, and_mask_special]

theorem andi (rt : RegIdx) (rs : RegIdx) (imm : BitVec 16) : Statement (.andi rt rs imm) := by
  simp [Statement, TableRow.matches, tableRow, encode, and_mask_op]

theorem ori (rt : RegIdx) (rs : RegIdx) (imm : BitVec 16) : Statement (.ori rt rs imm) := by
  simp [Statement, TableRow.matches, tableRow, encode, and_mask_op]

theorem xori (rt : RegIdx) (rs : RegIdx) (imm : BitVec 16) : Statement (.xori rt rs imm) := by
  simp [Statement, TableRow.matches, tableRow, encode, and_mask_op]

theorem lui (rt : RegIdx) (imm : BitVec 16) : Statement (.lui rt imm) := by
  simp [Statement, TableRow.matches, tableRow, encode, and_mask_op]

theorem sll (rd : RegIdx) (rt : RegIdx) (sa : Nat) : Statement (.sll rd rt sa) := by
  simp [Statement, TableRow.matches, tableRow, encode, and_mask_special]

theorem srl (rd : RegIdx) (rt : RegIdx) (sa : Nat) : Statement (.srl rd rt sa) := by
  simp [Statement, TableRow.matches, tableRow, encode, and_mask_special]

theorem sra (rd : RegIdx) (rt : RegIdx) (sa : Nat) : Statement (.sra rd rt sa) := by
  simp [Statement, TableRow.matches, tableRow, encode, and_mask_special]

theorem sllv (rd : RegIdx) (rt : RegIdx) (rs : RegIdx) : Statement (.sllv rd rt rs) := by
  simp [Statement, TableRow.matches, tableRow, encode, and_mask_special]

theorem srlv (rd : RegIdx) (rt : RegIdx) (rs : RegIdx) : Statement (.srlv rd rt rs) := by
  simp [Statement, TableRow.matches, tableRow, encode, and_mask_special]

theorem srav (rd : RegIdx) (rt : RegIdx) (rs : RegIdx) : Statement (.srav rd rt rs) := by
  simp [Statement, TableRow.matches, tableRow, encode, and_mask_special]

theorem lb (rt : RegIdx) (rs : RegIdx) (imm : BitVec 16) : Statement (.lb rt rs imm) := by
  simp [Statement, TableRow.matches, tableRow, encode, and_mask_op]

theorem lbu (rt : RegIdx) (rs : RegIdx) (imm : BitVec 16) : Statement (.lbu rt rs imm) := by
  simp [Statement, TableRow.matches, tableRow, encode, and_mask_op]

theorem lh (rt : RegIdx) (rs : RegIdx) (imm : BitVec 16) : Statement (.lh rt rs imm) := by
  simp [Statement, TableRow.matches, tableRow, encode, and_mask_op]

theorem lhu (rt : RegIdx) (rs : RegIdx) (imm : BitVec 16) : Statement (.lhu rt rs imm) := by
  simp [Statement, TableRow.matches, tableRow, encode, and_mask_op]

theorem lw (rt : RegIdx) (rs : RegIdx) (imm : BitVec 16) : Statement (.lw rt rs imm) := by
  simp [Statement, TableRow.matches, tableRow, encode, and_mask_op]

theorem lwl (rt : RegIdx) (rs : RegIdx) (imm : BitVec 16) : Statement (.lwl rt rs imm) := by
  simp [Statement, TableRow.matches, tableRow, encode, and_mask_op]

theorem lwr (rt : RegIdx) (rs : RegIdx) (imm : BitVec 16) : Statement (.lwr rt rs imm) := by
  simp [Statement, TableRow.matches, tableRow, encode, and_mask_op]

theorem sb (rt : RegIdx) (rs : RegIdx) (imm : BitVec 16) : Statement (.sb rt rs imm) := by
  simp [Statement, TableRow.matches, tableRow, encode, and_mask_op]

theorem sh (rt : RegIdx) (rs : RegIdx) (imm : BitVec 16) : Statement (.sh rt rs imm) := by
  simp [Statement, TableRow.matches, tableRow, encode, and_mask_op]

theorem sw (rt : RegIdx) (rs : RegIdx) (imm : BitVec 16) : Statement (.sw rt rs imm) := by
  simp [Statement, TableRow.matches, tableRow, encode, and_mask_op]

theorem swl (rt : RegIdx) (rs : RegIdx) (imm : BitVec 16) : Statement (.swl rt rs imm) := by
  simp [Statement, TableRow.matches, tableRow, encode, and_mask_op]

theorem swr (rt : RegIdx) (rs : RegIdx) (imm : BitVec 16) : Statement (.swr rt rs imm) := by
  simp [Statement, TableRow.matches, tableRow, encode, and_mask_op]

theorem beq (rs : RegIdx) (rt : RegIdx) (imm : BitVec 16) : Statement (.beq rs rt imm) := by
  simp [Statement, TableRow.matches, tableRow, encode, and_mask_op]

theorem bne (rs : RegIdx) (rt : RegIdx) (imm : BitVec 16) : Statement (.bne rs rt imm) := by
  simp [Statement, TableRow.matches, tableRow, encode, and_mask_op]

theorem blez (rs : RegIdx) (imm : BitVec 16) : Statement (.blez rs imm) := by
  simp [Statement, TableRow.matches, tableRow, encode, and_mask_op]

theorem bgtz (rs : RegIdx) (imm : BitVec 16) : Statement (.bgtz rs imm) := by
  simp [Statement, TableRow.matches, tableRow, encode, and_mask_op]

theorem bltz (rs : RegIdx) (imm : BitVec 16) : Statement (.bltz rs imm) := by
  simp [Statement, TableRow.matches, tableRow, encode, and_mask_regimm]

theorem bgez (rs : RegIdx) (imm : BitVec 16) : Statement (.bgez rs imm) := by
  simp [Statement, TableRow.matches, tableRow, encode, and_mask_regimm]

theorem bltzal (rs : RegIdx) (imm : BitVec 16) : Statement (.bltzal rs imm) := by
  simp [Statement, TableRow.matches, tableRow, encode, and_mask_regimm]

theorem bgezal (rs : RegIdx) (imm : BitVec 16) : Statement (.bgezal rs imm) := by
  simp [Statement, TableRow.matches, tableRow, encode, and_mask_regimm]

theorem j (target : BitVec 26) : Statement (.j target) := by
  simp [Statement, TableRow.matches, tableRow, encode, and_mask_op]

theorem jal (target : BitVec 26) : Statement (.jal target) := by
  simp [Statement, TableRow.matches, tableRow, encode, and_mask_op]

theorem jr (rs : RegIdx) : Statement (.jr rs) := by
  simp [Statement, TableRow.matches, tableRow, encode, and_mask_special]

theorem jalr (rd : RegIdx) (rs : RegIdx) : Statement (.jalr rd rs) := by
  simp [Statement, TableRow.matches, tableRow, encode, and_mask_special]

theorem syscall (code : BitVec 20) : Statement (.syscall code) := by
  simp [Statement, TableRow.matches, tableRow, encode, and_mask_special]

theorem brk (code : BitVec 20) : Statement (.brk code) := by
  simp [Statement, TableRow.matches, tableRow, encode, and_mask_special]

theorem mfc0 (rt : RegIdx) (cr : RegIdx) : Statement (.mfc0 rt cr) := by
  simp [Statement, TableRow.matches, tableRow, encode, and_mask_cop0]

theorem mtc0 (rt : RegIdx) (cr : RegIdx) : Statement (.mtc0 rt cr) := by
  simp [Statement, TableRow.matches, tableRow, encode, and_mask_cop0]

theorem rfe : Statement .rfe := by
  simp only [Statement]; decide

end Laws.TableWord

end Sys2Proof
end

