-- ==== Sys2Proof/Laws/Tick.lean ====
section
/-!
SUPPORT. What a tick can do, said once: the pump, the steps after execute field by field, and step_cases, which turns
"step answers next t" into the instruction that ran, or the fetch that faulted.
-/

namespace Sys2Proof.Machine

/-! ### The DMA pump -/

theorem ramCells_holds {cells : List Host.Cell} {c : Host.Cell} (h : c ∈ ramCells cells) : ram.holds c.1 := by
  obtain ⟨d, -, rfl⟩ := List.mem_map.mp h
  exact ByteDevice.holds_cell (by decide) _ _

/-- The pump keeps memory canonical (R241). -/
theorem State.pump_wf {s : State} (h : s.mem.wf) : s.pump.mem.wf := by
  unfold State.pump; split
  · exact Memory.wf_writeAll _ h
  · exact h

theorem State.pump_located {s : State} (h : s.mem.located) : s.pump.mem.located := by
  unfold State.pump; split
  · exact Memory.located_writeAll _ h (fun c hc => .inl (ramCells_holds hc))
  · exact h

/-- The pump writes no byte outside RAM (R241 a). -/
theorem State.pump_readByte_other (s : State) {a : Nat} (ha : ¬ ram.holds a) : s.pump.readByte a = s.readByte a := by
  unfold State.pump; split
  · refine Memory.read_writeAll_other _ _ (fun c hc he => ha ?_) _
    rw [← he]; exact ramCells_holds hc
  · rfl

/-! ### The steps after execute -/

theorem State.resolveBranch_pc (s : State) :
    s.resolveBranch.pc = if s.branchDelay && !s.trapped then s.branchAddress else s.pc := by
  unfold State.resolveBranch; cases s.branchDelay && !s.trapped <;> rfl

theorem State.resolveBranch_branch (s : State) :
    s.resolveBranch.branch = if s.branchDelay && !s.trapped then false else s.branch := by
  unfold State.resolveBranch; cases s.branchDelay && !s.trapped <;> rfl

@[simp] theorem State.endTick_hi (s : State) : s.endTick.hi = s.hi := by simp [State.endTick]
@[simp] theorem State.endTick_lo (s : State) : s.endTick.lo = s.lo := by simp [State.endTick]
@[simp] theorem State.endTick_branchDelay (s : State) : s.endTick.branchDelay = s.branchDelay := by
  simp [State.endTick]
@[simp] theorem State.endTick_branchAddress (s : State) : s.endTick.branchAddress = s.branchAddress := by
  simp [State.endTick]
@[simp] theorem State.endTick_slot0 (s : State) : s.endTick.slot0 = s.slot0 := by simp [State.endTick]
@[simp] theorem State.endTick_slot1 (s : State) : s.endTick.slot1 = Slot.empty := by simp [State.endTick]
@[simp] theorem State.endTick_cop0 (s : State) : s.endTick.cop0 = s.cop0 := by simp [State.endTick]
@[simp] theorem State.endTick_directWritten (s : State) : s.endTick.directWritten = none := by simp [State.endTick]
@[simp] theorem State.endTick_trapped (s : State) : s.endTick.trapped = false := by simp [State.endTick]
@[simp] theorem State.endTick_refused (s : State) : s.endTick.refused = s.refused := by simp [State.endTick]
@[simp] theorem State.endTick_draws (s : State) : s.endTick.draws = s.draws := by simp [State.endTick]

/-- `pc` after a tick (R406, R411). -/
theorem State.endTick_pc (s : State) :
    s.endTick.pc = if s.branchDelay && !s.trapped then s.branchAddress else s.pc + 4#32 := by
  simp only [State.endTick, State.dropTransients_pc, State.pump_pc, State.clearZero_pc, State.commitLoad_pc]
  exact State.resolveBranch_pc s.advancePc

/-- Whether a branch is pending after a tick (R411). -/
theorem State.endTick_branch (s : State) :
    s.endTick.branch = if s.branchDelay && !s.trapped then false else s.branch := by
  simp only [State.endTick, State.dropTransients_branch, State.pump_branch, State.clearZero_branch,
    State.commitLoad_branch]
  exact State.resolveBranch_branch s.advancePc

theorem State.endTick_regs_zero (s : State) : s.endTick.regs[0] = 0#32 := by
  simp only [State.endTick, State.dropTransients_regs, State.pump_regs, State.clearZero_regs]
  exact Vector.getElem_set_self ..

/-- `x[r]` after a tick: the pending load commits unless a direct write overrode it (R413, R414). -/
theorem State.endTick_reg (s : State) (r : RegIdx) :
    s.endTick.reg r =
      if s.slot1.target = r ∧ r ≠ 0 ∧ s.slot1.modified = false then s.slot1.value else s.reg r := by
  have hz : ∀ u : State, u.clearZero.reg r = u.reg r := by
    intro u
    unfold State.reg State.clearZero
    by_cases hr : r = 0
    · simp [hr]
    · rw [if_neg hr, if_neg hr]
      exact (vector_get_set u.regs 0 r _).trans (if_neg hr)
  have hp : s.endTick.reg r = s.advancePc.resolveBranch.commitLoad.reg r := by
    refine Eq.trans (State.reg_of_regs ?_ r) (hz _)
    simp only [State.endTick, State.dropTransients_regs, State.pump_regs]
  have hb : ∀ u : State, u.regs = s.regs → u.reg r = s.reg r := fun u hu => State.reg_of_regs hu r
  rw [hp]
  unfold State.commitLoad
  simp only [State.resolveBranch_slot1, State.advancePc_slot1]
  by_cases hc : s.slot1.target ≠ 0 ∧ s.slot1.modified = false
  · rw [if_pos hc, State.reg_putReg, hb _ (by simp)]
    by_cases hr : s.slot1.target = r
    · subst hr; simp [hc.1, hc.2]
    · simp [hr, Ne.symm hr]
  · rw [if_neg hc, hb _ (by simp)]
    split
    · next h => exact absurd ⟨h.1 ▸ h.2.1, h.2.2⟩ hc
    · rfl

theorem State.endTick_wf {s : State} (h : s.mem.wf) : s.endTick.mem.wf := by
  simp only [State.endTick, State.dropTransients_mem]
  exact State.pump_wf (by simpa using h)

theorem State.endTick_located {s : State} (h : s.mem.located) : s.endTick.mem.located := by
  simp only [State.endTick, State.dropTransients_mem]
  exact State.pump_located (by simpa using h)

theorem State.endTick_readByte_other (s : State) {a : Nat} (ha : ¬ ram.holds a) :
    s.endTick.readByte a = s.readByte a := by
  have h := State.pump_readByte_other s.advancePc.resolveBranch.commitLoad.clearZero ha
  have h1 : s.advancePc.resolveBranch.commitLoad.clearZero.readByte a = s.readByte a :=
    State.readByte_of_mem (by simp) a
  exact (State.readByte_of_mem (by simp only [State.endTick, State.dropTransients_mem]) a).trans (h.trans h1)

/-! ### The steps before the fetch -/

@[simp] theorem State.beginTick_regs (s : State) : s.beginTick.regs = s.regs := by simp [State.beginTick]
@[simp] theorem State.beginTick_hi (s : State) : s.beginTick.hi = s.hi := by simp [State.beginTick]
@[simp] theorem State.beginTick_lo (s : State) : s.beginTick.lo = s.lo := by simp [State.beginTick]
@[simp] theorem State.beginTick_pc (s : State) : s.beginTick.pc = s.pc := by simp [State.beginTick]
@[simp] theorem State.beginTick_branch (s : State) : s.beginTick.branch = s.branch := by simp [State.beginTick]
@[simp] theorem State.beginTick_branchDelay (s : State) : s.beginTick.branchDelay = s.branch := by
  simp [State.beginTick]
@[simp] theorem State.beginTick_branchAddress (s : State) : s.beginTick.branchAddress = s.branchAddress := by
  simp [State.beginTick]
@[simp] theorem State.beginTick_slot0 (s : State) : s.beginTick.slot0 = Slot.empty := by simp [State.beginTick]
@[simp] theorem State.beginTick_slot1 (s : State) : s.beginTick.slot1 = s.slot0 := by simp [State.beginTick]
@[simp] theorem State.beginTick_cop0 (s : State) : s.beginTick.cop0 = s.cop0 := by simp [State.beginTick]
@[simp] theorem State.beginTick_mem (s : State) : s.beginTick.mem = s.mem := by simp [State.beginTick]
@[simp] theorem State.beginTick_dma (s : State) : s.beginTick.dma = s.dma := by simp [State.beginTick]
@[simp] theorem State.beginTick_directWritten (s : State) : s.beginTick.directWritten = none := by
  simp [State.beginTick]
@[simp] theorem State.beginTick_trapped (s : State) : s.beginTick.trapped = false := by simp [State.beginTick]
@[simp] theorem State.beginTick_refused (s : State) : s.beginTick.refused = s.refused := by simp [State.beginTick]
@[simp] theorem State.beginTick_draws (s : State) : s.beginTick.draws = s.draws := by simp [State.beginTick]

/-! ### The step -/

/-- What a step that answers a next state did: it executed the instruction it fetched, or took the exception of a
misaligned fetch; and then ended the tick. -/
theorem step_cases {s t : State} (h : step s = .next t) :
    s.refused = false ∧
    ((s.beginTick.fetchable = true ∧ ∃ w s1 i e, s.beginTick.fetch = .ok (w, s1) ∧ decode w = .ok i ∧
        exec i s1 = .next e ∧ t = e.endTick) ∨
     (s.beginTick.fetchable = false ∧ t = s.beginTick.faultFetch.endTick)) := by
  unfold step at h
  split at h
  · cases h
  · next hr =>
    refine ⟨by simpa using hr, ?_⟩
    split at h
    · next hf =>
      split at h
      · next w s1 hw =>
        unfold runWord at h
        split at h
        · next i hi =>
          cases he : exec i s1 with
          | next e =>
            rw [he] at h
            exact .inl ⟨hf, w, s1, i, e, hw, hi, he, next_injective h⟩
          | fault f => exact nomatch f
          | refused q => rw [he] at h; cases h
        · cases h
      · cases h
    · next hf => exact .inr ⟨by simpa using hf, next_injective h⟩

/-- What the fetch leaves: the prepared state but for the diagnostics and the draw counter. -/
theorem State.fetch_spec {s s1 : State} {w : Word} (h : s.fetch = .ok (w, s1)) :
    s1 = { s with outputs := s1.outputs, draws := s1.draws } := State.busRead_spec h

end Sys2Proof.Machine
end

