-- ==== Sys2Proof/Tests/Slice0.lean ====
section
/-!
SUPPORT. The model's own tests: ill-formed terms, words written out from the spec's encodings, one step per instruction
with the result the spec's examples give (each comment names its rule or its vector of 95_test_vectors.md), and a witness
for the hypotheses of each statement.
-/

namespace Sys2Proof.Tests

open Sys2Proof.Machine Sys2Proof.Claims

/-! ### Helpers -/

/-- The next state of a result, if it is one. -/
def nextOf (r : Result) : Option State :=
  match r with
  | .next s => some s
  | .fault f => nomatch f
  | .refused _ => none

/-- The refusal of a result, if it is one. -/
def refusalOf (r : Result) : Option Refusal :=
  match r with
  | .next _ => none
  | .fault f => nomatch f
  | .refused q => some q

/-- The start state of 95_test_vectors.md: reset, `pc` at 0x80001000, and the listed registers. -/
def start (regs : List (RegIdx × Word)) : State :=
  regs.foldl (fun s p => s.putReg p.1 p.2) { State.reset with pc := 0x80001000#32 }

/-- `s` with word `v` at byte `a` of RAM. -/
def withWord (s : State) (a : Nat) (v : Word) : State :=
  { s with mem := writeDevice s.mem ram (BitVec.ofNat 32 a) .word v }

/-- The word 0x8899AABB at 0x80002000, which the spec's load and store examples read. -/
def withFixture (s : State) : State := withWord s 0x2000 0x8899AABB#32

/-- The state after one tick that runs the word `w`. -/
def ran (s : State) (w : Nat) : Option State := nextOf (step (s.withFetchWord 32 w))

/-- The word at byte `a` of RAM. -/
def wordAt (s : State) (a : Nat) : Word := readDevice s.mem ram (BitVec.ofNat 32 a) .word

/-! ### Well-formedness: a shift amount is at most 31 (R710) -/

theorem test_wellFormed_refuses_sll_32 : WellFormed (.sll 1 2 32) = false := by decide

theorem test_wellFormed_refuses_srl_32 : WellFormed (.srl 1 2 32) = false := by decide

theorem test_wellFormed_refuses_sra_32 : WellFormed (.sra 1 2 32) = false := by decide

theorem test_wellFormed_admits_sll_31 : WellFormed (.sll 1 2 31) = true := by decide

/-! ### Decoding: the words of the rules' own examples -/

-- R500
theorem test_decode_add : decodeTableWord 32 0x00221820 = some (.add 3 1 2) := by decide

-- R501
theorem test_decode_addu : decodeTableWord 32 0x00221821 = some (.addu 3 1 2) := by decide

-- R502
theorem test_decode_sub : decodeTableWord 32 0x00221822 = some (.sub 3 1 2) := by decide

-- R503
theorem test_decode_subu : decodeTableWord 32 0x00221823 = some (.subu 3 1 2) := by decide

-- R504
theorem test_decode_slt : decodeTableWord 32 0x0022182A = some (.slt 3 1 2) := by decide

-- R505
theorem test_decode_sltu : decodeTableWord 32 0x0022182B = some (.sltu 3 1 2) := by decide

-- R506
theorem test_decode_addi : decodeTableWord 32 0x2022FFFF = some (.addi 2 1 0xFFFF#16) := by decide

-- R507
theorem test_decode_addiu : decodeTableWord 32 0x24010005 = some (.addiu 1 0 5#16) := by decide

-- R508
theorem test_decode_slti : decodeTableWord 32 0x2822FFFF = some (.slti 2 1 0xFFFF#16) := by decide

-- R509
theorem test_decode_sltiu : decodeTableWord 32 0x2C22FFFF = some (.sltiu 2 1 0xFFFF#16) := by decide

-- R600
theorem test_decode_mult : decodeTableWord 32 0x00220018 = some (.mult 1 2) := by decide

-- R601
theorem test_decode_multu : decodeTableWord 32 0x00220019 = some (.multu 1 2) := by decide

-- R602
theorem test_decode_div : decodeTableWord 32 0x0022001A = some (.div 1 2) := by decide

-- R603
theorem test_decode_divu : decodeTableWord 32 0x0022001B = some (.divu 1 2) := by decide

-- R604
theorem test_decode_mfhi : decodeTableWord 32 0x00001810 = some (.mfhi 3) := by decide

-- R605
theorem test_decode_mflo : decodeTableWord 32 0x00001812 = some (.mflo 3) := by decide

-- R606
theorem test_decode_mthi : decodeTableWord 32 0x00200011 = some (.mthi 1) := by decide

-- R607
theorem test_decode_mtlo : decodeTableWord 32 0x00200013 = some (.mtlo 1) := by decide

-- R700
theorem test_decode_and : decodeTableWord 32 0x00221824 = some (.and 3 1 2) := by decide

-- R701
theorem test_decode_or : decodeTableWord 32 0x00221825 = some (.or 3 1 2) := by decide

-- R702
theorem test_decode_xor : decodeTableWord 32 0x00221826 = some (.xor 3 1 2) := by decide

-- R703
theorem test_decode_nor : decodeTableWord 32 0x00221827 = some (.nor 3 1 2) := by decide

-- R704
theorem test_decode_andi : decodeTableWord 32 0x30228001 = some (.andi 2 1 0x8001#16) := by decide

-- R705
theorem test_decode_ori : decodeTableWord 32 0x34228000 = some (.ori 2 1 0x8000#16) := by decide

-- R706
theorem test_decode_xori : decodeTableWord 32 0x3822FFFF = some (.xori 2 1 0xFFFF#16) := by decide

-- R707
theorem test_decode_lui : decodeTableWord 32 0x3C028001 = some (.lui 2 0x8001#16) := by decide

-- R708
theorem test_decode_sll : decodeTableWord 32 0x00021900 = some (.sll 3 2 4) := by decide

-- R709
theorem test_decode_srl : decodeTableWord 32 0x00021902 = some (.srl 3 2 4) := by decide

-- R712
theorem test_decode_sra : decodeTableWord 32 0x00021903 = some (.sra 3 2 4) := by decide

-- R713
theorem test_decode_sllv : decodeTableWord 32 0x00221804 = some (.sllv 3 2 1) := by decide

-- R714
theorem test_decode_srlv : decodeTableWord 32 0x00221806 = some (.srlv 3 2 1) := by decide

-- R715
theorem test_decode_srav : decodeTableWord 32 0x00221807 = some (.srav 3 2 1) := by decide

-- R810
theorem test_decode_lb : decodeTableWord 32 0x80220003 = some (.lb 2 1 3#16) := by decide

-- R811
theorem test_decode_lbu : decodeTableWord 32 0x90220001 = some (.lbu 2 1 1#16) := by decide

-- R812
theorem test_decode_lh : decodeTableWord 32 0x84220002 = some (.lh 2 1 2#16) := by decide

-- R813
theorem test_decode_lhu : decodeTableWord 32 0x94220000 = some (.lhu 2 1 0#16) := by decide

-- R814
theorem test_decode_lw : decodeTableWord 32 0x8C220002 = some (.lw 2 1 2#16) := by decide

-- R816
theorem test_decode_lwl : decodeTableWord 32 0x88220004 = some (.lwl 2 1 4#16) := by decide

-- R816
theorem test_decode_lwr : decodeTableWord 32 0x98220001 = some (.lwr 2 1 1#16) := by decide

-- R910
theorem test_decode_sb : decodeTableWord 32 0xA0230001 = some (.sb 3 1 1#16) := by decide

-- R911
theorem test_decode_sh : decodeTableWord 32 0xA4230002 = some (.sh 3 1 2#16) := by decide

-- R912
theorem test_decode_sw : decodeTableWord 32 0xAC230000 = some (.sw 3 1 0#16) := by decide

-- R905
theorem test_decode_swl : decodeTableWord 32 0xA8230004 = some (.swl 3 1 4#16) := by decide

-- R905
theorem test_decode_swr : decodeTableWord 32 0xB8230001 = some (.swr 3 1 1#16) := by decide

-- R1010
theorem test_decode_beq : decodeTableWord 32 0x10220002 = some (.beq 1 2 2#16) := by decide

-- R1011
theorem test_decode_bne : decodeTableWord 32 0x14220002 = some (.bne 1 2 2#16) := by decide

-- R1012
theorem test_decode_blez : decodeTableWord 32 0x18200002 = some (.blez 1 2#16) := by decide

-- R1013
theorem test_decode_bgtz : decodeTableWord 32 0x1C200002 = some (.bgtz 1 2#16) := by decide

-- R1014
theorem test_decode_bltz : decodeTableWord 32 0x04200002 = some (.bltz 1 2#16) := by decide

-- R1015
theorem test_decode_bgez : decodeTableWord 32 0x04210002 = some (.bgez 1 2#16) := by decide

-- R1016
theorem test_decode_bltzal : decodeTableWord 32 0x04300002 = some (.bltzal 1 2#16) := by decide

-- R1017
theorem test_decode_bgezal : decodeTableWord 32 0x04310002 = some (.bgezal 1 2#16) := by decide

-- R1018
theorem test_decode_j : decodeTableWord 32 0x08000404 = some (.j 0x404#26) := by decide

-- R1019
theorem test_decode_jal : decodeTableWord 32 0x0C000404 = some (.jal 0x404#26) := by decide

-- R1020
theorem test_decode_jr : decodeTableWord 32 0x00200008 = some (.jr 1) := by decide

-- R1021
theorem test_decode_jalr : decodeTableWord 32 0x00203809 = some (.jalr 7 1) := by decide

-- R1100
theorem test_decode_syscall : decodeTableWord 32 0x0000000C = some (.syscall 0#20) := by decide

-- R1101
theorem test_decode_brk : decodeTableWord 32 0x0000000D = some (.brk 0#20) := by decide

-- R1110
theorem test_decode_mfc0 : decodeTableWord 32 0x40027800 = some (.mfc0 2 15) := by decide

-- R1111
theorem test_decode_mtc0 : decodeTableWord 32 0x40816000 = some (.mtc0 1 12) := by decide

-- R1122
theorem test_decode_rfe : decodeTableWord 32 0x42000010 = some .rfe := by decide

-- R311: fields an instruction does not use are ignored (sa of ADD, bits 10:0 of MFC0, the code of SYSCALL)
theorem test_decode_ignores_unused_fields :
    decodeTableWord 32 0x00221FE0 = some (.add 3 1 2) ∧ decodeTableWord 32 0x400277FF = some (.mfc0 2 14) ∧
    decodeTableWord 32 0x43FFFFD0 = some .rfe := by decide

-- R341: the examples of refused words
theorem test_decode_refuses :
    decode 0xFFFFFFFF#32 = .error (.reservedOpcode 0x3F#6) ∧ decode 0x0000000E#32 = .error (.reservedSpecial 0x0E#6) ∧
    decode 0x04020000#32 = .error (.reservedRegimm 0x02#5) ∧ decode 0x40400000#32 = .error (.reservedCop0Move 0x02#5) ∧
    decode 0x42000001#32 = .error (.reservedCop0Operation 0x01#6) ∧
    decode 0x48000000#32 = .error (.coprocessor 0x12#6) := by decide

/-! ### One step for each instruction -/

-- V1
theorem test_add : (ran (start [(1, 5#32), (2, 7#32)]) 0x00221820).map (fun t => t.reg 3) = some 12#32 := by decide

-- V2
theorem test_add_overflows :
    (ran (start [(1, 0x7FFFFFFF#32), (2, 1#32), (3, 0x11#32)]) 0x00221820).map
      (fun t => (t.reg 3, t.cop0At 13, t.cop0At 14, t.pc)) =
    some (0x11#32, 0x30#32, 0x80001000#32, 0x80000080#32) := by decide

-- V4
theorem test_addu_wraps :
    (ran (start [(1, 0x7FFFFFFF#32), (2, 1#32)]) 0x00221821).map (fun t => t.reg 3) = some 0x80000000#32 := by decide

-- V8
theorem test_sub_fits : (ran (start [(2, 1#32)]) 0x00221822).map (fun t => t.reg 3) = some 0xFFFFFFFF#32 := by decide

-- V6
theorem test_sub_overflows :
    (ran (start [(2, 0x80000000#32)]) 0x00221822).map (fun t => (t.reg 3, t.cop0At 13)) =
    some (0#32, 0x30#32) := by decide

-- V9
theorem test_subu :
    (ran (start [(2, 0x80000000#32)]) 0x00221823).map (fun t => t.reg 3) = some 0x80000000#32 := by decide

-- V10
theorem test_slt :
    (ran (start [(1, 0xFFFFFFFF#32), (2, 1#32)]) 0x0022182A).map (fun t => t.reg 3) = some 1#32 := by decide

-- V11
theorem test_sltu :
    (ran (start [(1, 0xFFFFFFFF#32), (2, 1#32)]) 0x0022182B).map (fun t => t.reg 3) = some 0#32 := by decide

-- V12
theorem test_addi : (ran (start []) 0x2022FFFF).map (fun t => t.reg 2) = some 0xFFFFFFFF#32 := by decide

-- V13
theorem test_addi_overflows :
    (ran (start [(1, 0x7FFFFFFF#32), (2, 9#32)]) 0x20220001).map (fun t => (t.reg 2, t.cop0At 13)) =
    some (9#32, 0x30#32) := by decide

-- V14
theorem test_addiu : (ran (start []) 0x24228000).map (fun t => t.reg 2) = some 0xFFFF8000#32 := by decide

-- V15
theorem test_addiu_zero : (ran (start [(1, 1#32)]) 0x24200005).map (fun t => t.reg 0) = some 0#32 := by decide

-- V16
theorem test_slti : (ran (start [(1, 0xFFFFFFFE#32)]) 0x2822FFFF).map (fun t => t.reg 2) = some 1#32 := by decide

-- V18
theorem test_sltiu : (ran (start [(1, 0xFFFFFFFF#32)]) 0x2C22FFFF).map (fun t => t.reg 2) = some 0#32 := by decide

-- V20
theorem test_mult :
    (ran (start [(1, 0x80000000#32), (2, 0x80000000#32)]) 0x00220018).map (fun t => (t.hi, t.lo)) =
    some (0x40000000#32, 0#32) := by decide

-- V21
theorem test_multu :
    (ran (start [(1, 0xFFFFFFFF#32), (2, 0xFFFFFFFF#32)]) 0x00220019).map (fun t => (t.hi, t.lo)) =
    some (0xFFFFFFFE#32, 1#32) := by decide

-- V22
theorem test_div :
    (ran (start [(1, 0xFFFFFFF9#32), (2, 2#32)]) 0x0022001A).map (fun t => (t.hi, t.lo)) =
    some (0xFFFFFFFF#32, 0xFFFFFFFD#32) := by decide

-- V25
theorem test_div_by_zero :
    (ran (start [(1, 0xFFFFFFFB#32)]) 0x0022001A).map (fun t => (t.hi, t.lo)) =
    some (0xFFFFFFFB#32, 1#32) := by decide

-- V27
theorem test_divu :
    (ran (start [(1, 0xFFFFFFF9#32), (2, 2#32)]) 0x0022001B).map (fun t => (t.hi, t.lo)) =
    some (1#32, 0x7FFFFFFC#32) := by decide

-- V26
theorem test_divu_by_zero :
    (ran (start [(1, 0x12345678#32)]) 0x0022001B).map (fun t => (t.hi, t.lo)) =
    some (0x12345678#32, 0xFFFFFFFF#32) := by decide

-- R604
theorem test_mfhi :
    (ran { start [] with hi := 0x12345678#32 } 0x00001810).map (fun t => t.reg 3) = some 0x12345678#32 := by decide

-- V29
theorem test_mflo : (ran { start [] with lo := 12#32 } 0x00001812).map (fun t => t.reg 3) = some 12#32 := by decide

-- V30
theorem test_mthi :
    (ran (start [(1, 9#32)]) 0x00200011).map (fun t => (t.hi, t.lo)) =
    some (9#32, 0#32) := by decide

-- V31
theorem test_mtlo :
    (ran (start [(1, 9#32)]) 0x00200013).map (fun t => (t.hi, t.lo)) =
    some (0#32, 9#32) := by decide

-- V32
theorem test_and :
    (ran (start [(1, 0xF0F0F0F0#32), (2, 0xFF00FF00#32)]) 0x00221824).map (fun t => t.reg 3) = some 0xF000F000#32 := by decide

-- V33
theorem test_or :
    (ran (start [(1, 0xF0F0F0F0#32), (2, 0xFF00FF00#32)]) 0x00221825).map (fun t => t.reg 3) = some 0xFFF0FFF0#32 := by decide

-- V34
theorem test_xor :
    (ran (start [(1, 0xF0F0F0F0#32), (2, 0xFF00FF00#32)]) 0x00221826).map (fun t => t.reg 3) = some 0x0FF00FF0#32 := by decide

-- V35
theorem test_nor :
    (ran (start [(1, 0xF0F0F0F0#32), (2, 0xFF00FF00#32)]) 0x00221827).map (fun t => t.reg 3) = some 0x000F000F#32 := by decide

-- R704
theorem test_andi :
    (ran (start [(1, 0xFFFFFFFF#32)]) 0x30228001).map (fun t => t.reg 2) = some 0x00008001#32 := by decide

-- R705
theorem test_ori :
    (ran (start [(1, 0x12340000#32)]) 0x34228000).map (fun t => t.reg 2) = some 0x12348000#32 := by decide

-- R706
theorem test_xori :
    (ran (start [(1, 0xFFFFFFFF#32)]) 0x3822FFFF).map (fun t => t.reg 2) = some 0xFFFF0000#32 := by decide

-- R707
theorem test_lui : (ran (start []) 0x3C028001).map (fun t => t.reg 2) = some 0x80010000#32 := by decide

-- R708
theorem test_sll : (ran (start [(2, 0x80000001#32)]) 0x00021900).map (fun t => t.reg 3) = some 0x10#32 := by decide

-- R709
theorem test_srl :
    (ran (start [(2, 0x80000010#32)]) 0x00021902).map (fun t => t.reg 3) = some 0x08000001#32 := by decide

-- R712
theorem test_sra :
    (ran (start [(2, 0x80000010#32)]) 0x00021903).map (fun t => t.reg 3) = some 0xF8000001#32 := by decide

-- R713
theorem test_sllv : (ran (start [(1, 33#32), (2, 1#32)]) 0x00221804).map (fun t => t.reg 3) = some 2#32 := by decide

-- R714
theorem test_srlv :
    (ran (start [(1, 0x24#32), (2, 0x80000000#32)]) 0x00221806).map (fun t => t.reg 3) = some 0x08000000#32 := by decide

-- R715
theorem test_srav :
    (ran (start [(1, 0xFFFFFFFF#32), (2, 0x80000000#32)]) 0x00221807).map (fun t => t.reg 3) = some 0xFFFFFFFF#32 := by decide

-- R810
theorem test_lb :
    (ran (withFixture (start [(1, 0x80002000#32)])) 0x80220003).map
      (fun t => (t.slot0.target, t.slot0.value, t.reg 2)) = some (2, 0xFFFFFF88#32, 0#32) := by decide

-- R811
theorem test_lbu :
    (ran (withFixture (start [(1, 0x80002000#32)])) 0x90220001).map
      (fun t => (t.slot0.target, t.slot0.value, t.reg 2)) = some (2, 0xAA#32, 0#32) := by decide

-- R812
theorem test_lh :
    (ran (withFixture (start [(1, 0x80002000#32)])) 0x84220002).map
      (fun t => (t.slot0.target, t.slot0.value, t.reg 2)) = some (2, 0xFFFF8899#32, 0#32) := by decide

-- R813
theorem test_lhu :
    (ran (withFixture (start [(1, 0x80002000#32)])) 0x94220000).map
      (fun t => (t.slot0.target, t.slot0.value, t.reg 2)) = some (2, 0xAABB#32, 0#32) := by decide

-- R814
theorem test_lw :
    (ran (withFixture (start [(1, 0x80002000#32)])) 0x8C220000).map
      (fun t => (t.slot0.target, t.slot0.value, t.reg 2)) = some (2, 0x8899AABB#32, 0#32) := by decide

-- R815
theorem test_lwl :
    (ran (withFixture (start [(1, 0x80002000#32), (2, 0x01020304#32)])) 0x88220001).map
      (fun t => (t.slot0.target, t.slot0.value, t.reg 2)) = some (2, 0xAABB0304#32, 0x01020304#32) := by decide

-- R816
theorem test_lwr :
    (ran (withFixture (start [(1, 0x80002000#32), (2, 0x01020304#32)])) 0x98220001).map
      (fun t => (t.slot0.target, t.slot0.value, t.reg 2)) = some (2, 0x018899AA#32, 0x01020304#32) := by decide

-- R814
theorem test_lw_misaligned :
    (ran (start [(1, 0x80002000#32), (2, 7#32)]) 0x8C220002).map
      (fun t => (t.cop0At 13, t.cop0At 14, t.cop0At 8, t.reg 2)) =
    some (0x10#32, 0x80001000#32, 0x80002002#32, 7#32) := by decide

-- R812
theorem test_lh_misaligned :
    (ran (start [(1, 0x80002001#32)]) 0x84220000).map (fun t => (t.cop0At 13, t.cop0At 8, t.slot0)) =
    some (0x10#32, 0x80002001#32, Slot.empty) := by decide

-- R816
theorem test_lwl_merges_the_pending_load :
    (nextOf (exec (.lwl 2 1 4#16) { withWord (start [(1, 0x80002000#32)]) 0x2004 0x11223344#32 with
      slot1 := ⟨2, 0x008899AA#32, false, 0#32⟩ })).map (fun t => t.slot0.value) = some 0x448899AA#32 := by decide

-- R910
theorem test_sb :
    (ran (withFixture (start [(1, 0x80002000#32), (3, 0xCAFEBABE#32)])) 0xA0230001).map
      (fun t => wordAt t 0x2000) = some 0x8899BEBB#32 := by decide

-- R911
theorem test_sh :
    (ran (withFixture (start [(1, 0x80002000#32), (3, 0xCAFEBABE#32)])) 0xA4230002).map
      (fun t => wordAt t 0x2000) = some 0xBABEAABB#32 := by decide

-- R912
theorem test_sw :
    (ran (withFixture (start [(1, 0x80002000#32), (3, 0xCAFEBABE#32)])) 0xAC230000).map
      (fun t => wordAt t 0x2000) = some 0xCAFEBABE#32 := by decide

-- R904
theorem test_swl :
    (ran (withFixture (start [(1, 0x80002000#32), (3, 0xCAFEBABE#32)])) 0xA8230001).map
      (fun t => wordAt t 0x2000) = some 0x8899CAFE#32 := by decide

-- R905
theorem test_swr :
    (ran (withFixture (start [(1, 0x80002000#32), (3, 0xCAFEBABE#32)])) 0xB8230001).map
      (fun t => wordAt t 0x2000) = some 0xFEBABEBB#32 := by decide

-- R911
theorem test_sh_misaligned :
    (ran (withFixture (start [(1, 0x80002000#32), (3, 0xCAFEBABE#32)])) 0xA4230001).map
      (fun t => (t.cop0At 13, t.cop0At 8, wordAt t 0x2000)) = some (0x14#32, 0x80002001#32, 0x8899AABB#32) := by decide

-- R912, with SR.IsC set
theorem test_sw_isolated :
    (ran ((withFixture (start [(1, 0x80002000#32), (3, 0xCAFEBABE#32)])).setCop0 12 0x00010000#32) 0xAC230000).map
      (fun t => wordAt t 0x2000) = some 0x8899AABB#32 := by decide

-- R1010
theorem test_beq :
    (ran (start [(1, 5#32), (2, 5#32)]) 0x10220002).map (fun t => (t.branch, t.branchAddress, t.pc)) =
    some (true, 0x8000100C#32, 0x80001004#32) := by decide

-- R1011
theorem test_bne :
    (ran (start [(1, 5#32), (2, 6#32)]) 0x14220002).map (fun t => (t.branch, t.branchAddress, t.pc)) =
    some (true, 0x8000100C#32, 0x80001004#32) := by decide

-- R1012
theorem test_blez :
    (ran (start [(1, 0x80000000#32)]) 0x18200002).map (fun t => (t.branch, t.branchAddress, t.pc)) =
    some (true, 0x8000100C#32, 0x80001004#32) := by decide

-- R1013
theorem test_bgtz_zero :
    (ran (start []) 0x1C200002).map (fun t => (t.branch, t.branchAddress, t.pc)) =
    some (false, 0#32, 0x80001004#32) := by decide

-- R1013
theorem test_bgtz :
    (ran (start [(1, 1#32)]) 0x1C200002).map (fun t => (t.branch, t.branchAddress, t.pc)) =
    some (true, 0x8000100C#32, 0x80001004#32) := by decide

-- R1014
theorem test_bltz :
    (ran (start [(1, 0xFFFFFFFF#32)]) 0x04200002).map (fun t => (t.branch, t.branchAddress, t.pc)) =
    some (true, 0x8000100C#32, 0x80001004#32) := by decide

-- R1015
theorem test_bgez :
    (ran (start []) 0x04210002).map (fun t => (t.branch, t.branchAddress, t.pc)) =
    some (true, 0x8000100C#32, 0x80001004#32) := by decide

-- R1015
theorem test_bgez_negative :
    (ran (start [(1, 0xFFFFFFFF#32)]) 0x04210002).map (fun t => (t.branch, t.branchAddress, t.pc)) =
    some (false, 0#32, 0x80001004#32) := by decide

-- R1016
theorem test_bltzal_not_taken_links :
    (ran (start []) 0x04300002).map (fun t => (t.branch, t.reg 31)) = some (false, 0x80001008#32) := by decide

-- R1016
theorem test_bltzal_tests_the_old_link :
    (ran (start [(31, 0xFFFFFFFF#32)]) 0x07F00002).map (fun t => (t.branch, t.reg 31)) =
    some (true, 0x80001008#32) := by decide

-- R1017
theorem test_bgezal :
    (ran (start []) 0x04310002).map (fun t => (t.branch, t.branchAddress, t.reg 31)) =
    some (true, 0x8000100C#32, 0x80001008#32) := by decide

-- R1018, its corner case
theorem test_j_takes_the_region_of_the_delay_slot :
    (nextOf (exec (.j 0x404#26) { start [] with pc := 0x8FFFFFFC#32 })).map (fun t => t.branchAddress) =
    some 0x90001010#32 := by decide

-- R1019
theorem test_jal :
    (ran (start []) 0x0C000404).map (fun t => (t.branchAddress, t.reg 31)) = some (0x80001010#32, 0x80001008#32) := by decide

-- R1020
theorem test_jr_misaligned :
    (ran (start [(1, 0x80001012#32)]) 0x00200008).map (fun t => (t.branch, t.branchAddress, t.trapped)) =
    some (true, 0x80001012#32, false) := by decide

-- R1021
theorem test_jalr_same_register :
    (ran (start [(1, 0x80001010#32)]) 0x00200809).map (fun t => (t.branchAddress, t.reg 1)) =
    some (0x80001010#32, 0x80001008#32) := by decide

-- R1100
theorem test_syscall :
    (ran ((start []).setCop0 12 3#32) 0x0000000C).map (fun t => (t.pc, t.cop0At 13, t.cop0At 14, t.cop0At 12)) =
    some (0x80000080#32, 0x20#32, 0x80001000#32, 0xC#32) := by decide

-- R1100, with BEV set
theorem test_syscall_bev :
    (ran ((start []).setCop0 12 0x00400001#32) 0x0000000C).map (fun t => (t.pc, t.cop0At 12)) =
    some (0xBFC00180#32, 0x00400004#32) := by decide

-- R1101
theorem test_break :
    (ran ((start []).setCop0 12 0xC#32) 0x0000000D).map (fun t => (t.pc, t.cop0At 13, t.cop0At 12)) =
    some (0x80000080#32, 0x24#32, 0x30#32) := by decide

-- R1110
theorem test_mfc0 :
    (ran (start [(2, 7#32)]) 0x40027800).map (fun t => (t.reg 2, t.slot0.target, t.slot0.value)) =
    some (7#32, 2, 2#32) := by decide

-- R1111
theorem test_mtc0_cause :
    (ran ((start [(1, 0xFFFFFFFF#32)]).setCop0 13 0x80000024#32) 0x40816800).map (fun t => t.cop0At 13) =
    some 0x80000324#32 := by decide

-- R1111
theorem test_mtc0_badvaddr :
    (ran ((start [(1, 0x12345678#32)]).setCop0 8 0xABCD#32) 0x40814000).map (fun t => t.cop0At 8) = some 0xABCD#32 := by decide

-- R1122
theorem test_rfe :
    (ran ((start []).setCop0 12 0x12#32) 0x42000010).map (fun t => (t.cop0At 12, t.pc)) =
    some (0x14#32, 0x80001004#32) := by decide

/-! ### The tick -/

-- R1303: the reset scenario
theorem test_reset_scenario :
    (ran State.reset 0x24010005).map (fun t => (t.reg 1, t.pc, t.cop0At 13, t.cop0At 14)) =
    some (5#32, 0xBFC00004#32, 0#32, 0#32) := by decide

-- R1217: ADD in the delay slot of a branch
theorem test_overflow_in_a_delay_slot :
    (ran { start [(1, 0x7FFFFFFF#32), (2, 1#32)] with pc := 0x80001004#32, branch := true, branchAddress := 0x80001010#32 }
      0x00221820).map (fun t => (t.cop0At 13, t.cop0At 14, t.pc, t.branch)) =
    some (0x80000030#32, 0x80001000#32, 0x80000080#32, false) := by decide

-- R421: a direct write in the load delay slot wins
theorem test_direct_write_wins :
    (ran { start [(2, 7#32)] with slot0 := ⟨2, 0x55#32, false, 0#32⟩ } 0x24020001).map (fun t => t.reg 2) =
    some 1#32 := by decide

-- R402: the TTY hook at 0xB0
theorem test_tty :
    (ran { start [(9, 0x3D#32), (4, 0x141#32)] with pc := 0x800000B0#32 } 0).map (fun t => t.outputs) =
    some [.tty 0x41#8] := by decide

-- R1217: the fetch at 0x80001012
theorem test_misaligned_fetch :
    (nextOf (step { start [] with pc := 0x80001012#32 })).map (fun t => (t.cop0At 13, t.cop0At 8, t.cop0At 14, t.pc)) =
    some (0x10#32, 0x80001012#32, 0x80001012#32, 0x80000080#32) := by decide

-- R233, R237: narrow accesses of word registers
theorem test_narrow_accesses_are_refused :
    refusalOf (step ((start [(1, 0x1F801080#32)]).withFetchWord 32 0x80220000)) = some .narrowDmaAccess ∧
    refusalOf (step ((start [(1, 0x1F801810#32)]).withFetchWord 32 0xA4220000)) = some .narrowGpuAccess := by decide

/-! ### Witnesses: states and operands that meet each statement's hypotheses -/

/-- `pc` where a fetch reads an unmapped word, 0xFFFFFFFF (R219, R404). -/
def unmappedPc : State := { State.reset with pc := 0x1F801100#32 }

/-- A word placed where the next tick fetches it. -/
def placed (w : Nat) : State := (start []).withFetchWord 32 w

/-- A load pending in slot0, and a word for the next tick. -/
def pendingLoad (w : Nat) : State := { placed w with slot0 := ⟨2, 0x55#32, false, 0#32⟩ }

/-- SR.IsC set. -/
def isolated : State := (start []).setCop0 12 0x00010000#32

theorem witness_DecodeOfEncode :
    WellFormed (.sll 31 0 31) = true ∧ WellFormed (.sll 0 31 0) = true ∧ WellFormed .rfe = true := by decide

theorem witness_EncodeOfDecode : decode 0x00221FE0#32 = .ok (.add 3 1 2) := by decide

theorem witness_DecodeFollowsTheTable :
    decode 0x43FFFFD0#32 = .ok .rfe ∧ (tableRow .rfe).matches 0x43FFFFD0#32 = true := by decide

theorem witness_RefusedWords_table (i : Instr) : (tableRow i).matches 0xFFFFFFFF#32 = false := by
  cases i <;> simp only [tableRow] <;> decide

theorem witness_RefusedWords_coprocessor :
    isCoprocessorOp (opOf 0x48000000#32) = true ∧ isCoprocessorOp (opOf 0xEFFFFFFF#32) = true := by decide

theorem witness_RefusedWords_fetch :
    unmappedPc.refused = false ∧ unmappedPc.pc &&& 3#32 = 0#32 ∧
    ∃ s1, unmappedPc.beginTick.busRead unmappedPc.pc .word = .ok (0xFFFFFFFF#32, s1) ∧
      decode 0xFFFFFFFF#32 = .error (.reservedOpcode 0x3F#6) :=
  ⟨by decide, by decide, _, rfl, by decide⟩

theorem witness_RefusedStates :
    State.refused { State.reset with refused := true } = true ∧ ∃ t, step State.reset = .next t :=
  ⟨by decide, _, rfl⟩

theorem witness_StepRunsTheInstructionAtPc_word :
    (placed 0x24010005).refused = false ∧ (placed 0x24010005).pc &&& 3#32 = 0#32 ∧
    ∃ s1, (placed 0x24010005).beginTick.busRead (placed 0x24010005).pc .word = .ok (0x24010005#32, s1) ∧
      decode 0x24010005#32 = .ok (.addiu 1 0 5#16) ∧ ∃ t, exec (.addiu 1 0 5#16) s1 = .next t :=
  ⟨by decide, by decide, _, rfl, by decide, _, rfl⟩

theorem witness_StepRunsTheInstructionAtPc_bytes :
    deviceOf (regionOf (maskAddress (placed 0x24010005).pc)) = some ram ∧
    decodeBytes [byteAt (placed 0x24010005) ram (placed 0x24010005).pc 0, byteAt (placed 0x24010005) ram (placed 0x24010005).pc 1,
      byteAt (placed 0x24010005) ram (placed 0x24010005).pc 2, byteAt (placed 0x24010005) ram (placed 0x24010005).pc 3] =
      .ok (.addiu 1 0 5#16, []) ∧
    deviceOf (regionOf (maskAddress State.reset.pc)) = some bios := by decide

theorem witness_StepRunsTheInstructionAtPc_refusal :
    refusalOf (exec (.lb 2 1 0#16) (start [(1, 0x1F801080#32)])) = some .narrowDmaAccess := by decide

theorem witness_BranchResolution :
    (State.branchDelay { start [] with branchDelay := true } = true ∧
      State.trapped { start [] with branchDelay := true } = false) ∧
    (start []).branchDelay = false ∧ State.trapped { start [] with trapped := true } = true := by decide

theorem witness_BranchResolution_exec : ∃ t, exec (.beq 0 0 1#16) (start []) = .next t := ⟨_, rfl⟩

theorem witness_MisalignedFetch :
    State.refused { State.reset with pc := 0xBFC00002#32 } = false ∧
    (0xBFC00002#32 : Word) &&& 3#32 ≠ 0#32 ∧ (0xBFC00001#32 : Word) &&& 3#32 ≠ 0#32 := by decide

theorem witness_PcAfterStep :
    (∃ t, step (placed 0x10000003) = .next t ∧ t.branch = true) ∧ (placed 0x10000003).branch = false ∧
    ∃ t, step { placed 0 with branch := true } = .next t :=
  ⟨⟨_, rfl, by decide⟩, by decide, _, rfl⟩

/-- ADDU in the load delay slot writes another register: the load commits. -/
theorem witness_PendingLoad_commits :
    (pendingLoad 0x00402021).refused = false ∧ (pendingLoad 0x00402021).pc &&& 3#32 = 0#32 ∧
    (pendingLoad 0x00402021).slot0.target ≠ 0 ∧ (pendingLoad 0x00402021).slot0.modified = false ∧
    ∃ s1 e, (pendingLoad 0x00402021).beginTick.busRead (pendingLoad 0x00402021).pc .word = .ok (0x00402021#32, s1) ∧
      decode 0x00402021#32 = .ok (.addu 4 2 0) ∧ exec (.addu 4 2 0) s1 = .next e ∧ directDest (.addu 4 2 0) ≠ some 2 :=
  ⟨by decide, by decide, by decide, by decide, _, _, rfl, by decide, rfl, by decide⟩

/-- ADDIU r2 in the load delay slot of a load to r2: the direct write stands. -/
theorem witness_PendingLoad_overridden :
    ∃ s1 e, (pendingLoad 0x24020001).beginTick.busRead (pendingLoad 0x24020001).pc .word = .ok (0x24020001#32, s1) ∧
      decode 0x24020001#32 = .ok (.addiu 2 0 1#16) ∧ exec (.addiu 2 0 1#16) s1 = .next e ∧
      directDest (.addiu 2 0 1#16) = some (pendingLoad 0x24020001).slot0.target ∧ e.trapped = false :=
  ⟨_, _, rfl, by decide, rfl, by decide, by decide⟩

/-- ADDI r2 in the load delay slot of a load to r2 overflows: it takes the exception, and the load commits. -/
theorem witness_PendingLoad_trapped :
    ∃ s1 e, ((pendingLoad 0x20220001).putReg 1 0x7FFFFFFF#32).beginTick.busRead (pendingLoad 0x20220001).pc .word =
        .ok (0x20220001#32, s1) ∧
      decode 0x20220001#32 = .ok (.addi 2 1 1#16) ∧ exec (.addi 2 1 1#16) s1 = .next e ∧
      directDest (.addi 2 1 1#16) = some (pendingLoad 0x20220001).slot0.target ∧ e.trapped = true :=
  ⟨_, _, rfl, by decide, rfl, by decide, by decide⟩

/-- The state after reset meets the invariant. -/
theorem witness_reset_inv : State.reset.Inv where
  memWf := by decide
  memLocated := by decide
  zeroReg := by decide
  slot1Empty := by decide
  slot0Fresh := by decide
  noWriteNoted := by decide
  notTrapped := by decide
  notRefused := by decide
  cop0Zero := by decide
  prid := by decide
  causeReserved := by decide
  delaySlotAligned := by decide

theorem witness_StepKeepsTheInvariant : State.reset.Inv ∧ ∃ t, step State.reset = .next t :=
  ⟨witness_reset_inv, _, rfl⟩

theorem witness_BiosIsTheImage :
    (List.replicate 524288 (0x5A#8 : Byte)).length = 524288 ∧ ([] : List Byte).length ≠ 524288 ∧
    (Launch.mk (List.replicate 524288 0x5A#8) none 0 .words).exeImage = none ∧
    (List.replicate 524288 (0x5A#8 : Byte))[524287]? = some 0x5A#8 ∧ bios.holds 0x1FC00000 ∧ bios.holds 0x1FC7FFFF ∧
    ¬ bios.holds 0x1FC80000 := by
  refine ⟨List.length_replicate, by decide, rfl, ?_, by decide, by decide, by decide⟩
  rw [List.getElem?_replicate]; decide

theorem witness_BiosIsTheImage_store :
    ∃ t, (start []).busWrite 0xBFC00000#32 .word 1#32 = .ok t := ⟨_, rfl⟩

theorem witness_ConstantCop0Registers :
    (∃ t, step (placed 0x40817800) = .next t) ∧ constantZeroCop0 6 = true ∧ constantZeroCop0 31 = true ∧
    constantZeroCop0 8 = false := ⟨⟨_, rfl⟩, by decide, by decide, by decide⟩

theorem witness_EpcIsWrittenOnlyByEntry :
    (∃ t, exec (.syscall 0) (start []) = .next t ∧ t.cop0At 14 ≠ (start []).cop0At 14) ∧
    (∃ t, step (placed 0x0000000C) = .next t) ∧ ∃ t, exec (.mtc0 1 14) (start []) = .next t :=
  ⟨⟨_, rfl, by decide⟩, ⟨_, rfl⟩, _, rfl⟩

theorem witness_IsolationStopsEveryStore :
    (isolated.cop0At 12).getLsbD 16 = true ∧ ∃ t, exec (.sw 1 0 0#16) isolated = .next t :=
  ⟨by decide, _, rfl⟩

theorem witness_SegmentBitsAreMasked :
    (0x80002000#32 : Word) &&& 0x1FFFFFFF#32 = 0xA0002000#32 &&& 0x1FFFFFFF#32 ∧
    (start []).isolates 0x80002000#32 = (start []).isolates 0xA0002000#32 ∧
    (0xFFFE0130#32 : Word) &&& 0x1FFFFFFF#32 = 0x1FFE0130#32 := by decide

/-- The first and the last address of each region of R211. -/
theorem witness_RegionTable :
    regionOf 0x00000000#32 = .ram ∧ regionOf 0x001FFFFF#32 = .ram ∧ regionOf 0x00200000#32 = .unmapped ∧
    regionOf 0x1F7FFFFF#32 = .unmapped ∧ regionOf 0x1F800000#32 = .scratchpad ∧ regionOf 0x1F800FFF#32 = .scratchpad ∧
    regionOf 0x1F801000#32 = .ioStub ∧ regionOf 0x1F80107F#32 = .ioStub ∧ regionOf 0x1F801080#32 = .dma ∧
    regionOf 0x1F8010FF#32 = .dma ∧ regionOf 0x1F801100#32 = .unmapped ∧ regionOf 0x1F80180F#32 = .unmapped ∧
    regionOf 0x1F801810#32 = .gpu ∧ regionOf 0x1F801817#32 = .gpu ∧ regionOf 0x1F801818#32 = .unmapped ∧
    regionOf 0x1FBFFFFF#32 = .unmapped ∧ regionOf 0x1FC00000#32 = .bios ∧ regionOf 0x1FFFFFFF#32 = .bios := by decide

theorem witness_RamReadsAndStores :
    ((0x80002000#32 : Word) &&& 0x1FFFFFFF#32).toNat < 0x00200000 ∧
    ((0xA01FFFFC#32 : Word) &&& 0x1FFFFFFF#32).toNat < 0x00200000 ∧
    (start []).isolates 0x80002000#32 = false ∧ (0xA01FFFFC#32 : Word) &&& 3#32 = 0#32 := by decide

theorem witness_ScratchpadAndBios :
    (0x1F800000 ≤ ((0x9F800FFF#32 : Word) &&& 0x1FFFFFFF#32).toNat ∧
      ((0x9F800FFF#32 : Word) &&& 0x1FFFFFFF#32).toNat < 0x1F801000) ∧
    (start []).isolates 0x9F800FFF#32 = false ∧ 0x1FC00000 ≤ ((0xBFC00000#32 : Word) &&& 0x1FFFFFFF#32).toNat ∧
    0x1FC00000 ≤ ((0xFFFE0130#32 : Word) &&& 0x1FFFFFFF#32).toNat := by decide

theorem witness_NarrowReadsOfAStoredWord :
    regionOf (maskAddress 0x80002000#32) = .ram ∧ regionOf (maskAddress 0x1F800FFC#32) = .scratchpad ∧
    (0x1F800FFC#32 : Word) &&& 3#32 = 0#32 ∧ (start []).isolates 0x1F800FFC#32 = false ∧
    (∃ t, (start []).busWrite 0x1F800FFC#32 .word 1#32 = .ok t) ∧ (3 < 4 ∧ 1 < 2) :=
  ⟨by decide, by decide, by decide, by decide, ⟨_, rfl⟩, by decide⟩

theorem witness_UnmappedAndIoStub :
    regionOf (maskAddress 0x1F801100#32) = .unmapped ∧ regionOf (maskAddress 0x80200000#32) = .unmapped ∧
    regionOf (maskAddress 0x1F80107C#32) = .ioStub := by decide

theorem witness_DmaRegistersReadBack :
    regionOf (maskAddress 0xBF8010F0#32) = .dma ∧ dmaRegAt (maskAddress 0xBF8010F0#32) = some .dpcr ∧
    dmaRegAt (maskAddress 0xBF8010E8#32) = some (.chcr 6) ∧ (start []).isolates 0xBF8010F0#32 = false := by decide

theorem witness_DmaMapAndGpuWindow :
    maskAddress 0xBF8010F8#32 = 0x1F8010F8#32 ∧ maskAddress 0x1F8010FC#32 = 0x1F8010FC#32 ∧
    maskAddress 0x1F801810#32 = 0x1F801810#32 ∧ maskAddress 0xBF801814#32 = 0x1F801814#32 ∧
    (start []).isolates 0x1F801810#32 = false := by decide

theorem witness_NarrowAccessesAreRefused :
    regionOf (maskAddress ((start [(1, 0x1F8010FE#32)]).ea 1 0#16)) = .dma ∧
    regionOf (maskAddress ((start [(1, 0x1F801816#32)]).ea 1 0#16)) = .gpu ∧
    (start [(1, 0x1F801816#32)]).ea 1 0#16 &&& 1#32 = 0#32 ∧
    (start [(1, 0x1F801816#32)]).isolates ((start [(1, 0x1F801816#32)]).ea 1 0#16) = false := by decide

theorem witness_PumpIsConfined : ∀ c : Channel, State.reset.dma.chcr[c] = 0#32 := by decide

/-- 0x7FFFFFFF + (-1) fits, 0x7FFFFFFF + 1 does not (R500). -/
theorem witness_AddAndAddi :
    (((0x7FFFFFFF#32 ^^^ (0x7FFFFFFF#32 + 0xFFFFFFFF#32)) &&& (0xFFFFFFFF#32 ^^^ (0x7FFFFFFF#32 + 0xFFFFFFFF#32))).getLsbD 31
      = false) ∧
    (((0x7FFFFFFF#32 ^^^ (0x7FFFFFFF#32 + 1#32)) &&& (1#32 ^^^ (0x7FFFFFFF#32 + 1#32))).getLsbD 31 = true) ∧
    (start [(1, 0x7FFFFFFF#32)]).reg 1 = 0x7FFFFFFF#32 ∧ (0xFFFF#16 : BitVec 16).signExtend 32 = 0xFFFFFFFF#32 := by decide

/-- 0 - 1 fits, 0 - 0x80000000 does not, at the ends of the range (R502). -/
theorem witness_OverflowIsExact :
    (-2147483648 ≤ (0x80000000#32 : Word).toInt + (0#32 : Word).toInt ∧
      (0x7FFFFFFF#32 : Word).toInt + (0#32 : Word).toInt < 2147483648) ∧
    ¬ (0#32 : Word).toInt - (0x80000000#32 : Word).toInt < 2147483648 ∧
    ¬ -2147483648 ≤ (0x80000000#32 : Word).toInt + (0xFFFF#16 : BitVec 16).toInt := by decide

theorem witness_Divide :
    (start []).reg 2 = 0#32 ∧ (start [(2, 0xFFFFFFFF#32)]).reg 2 = 0xFFFFFFFF#32 ∧
    (start [(1, 0x80000000#32)]).reg 1 = 0x80000000#32 ∧
    ¬ ((start [(2, 0xFFFFFFFF#32)]).reg 1 = 0x80000000#32 ∧ (start [(2, 0xFFFFFFFF#32)]).reg 2 = 0xFFFFFFFF#32) := by decide

theorem witness_ShiftsByAmount : 0 < 32 ∧ 31 < 32 := by decide

theorem witness_LoadByte :
    inWordWindow ((start [(1, 0x80002003#32)]).reg 1 + (0#16 : BitVec 16).signExtend 32) = false ∧
    regionOf (maskAddress ((start [(1, 0x1F801080#32)]).reg 1 + (0#16 : BitVec 16).signExtend 32)) = .dma ∧
    regionOf (maskAddress ((start [(1, 0x1F801817#32)]).reg 1 + (0#16 : BitVec 16).signExtend 32)) = .gpu := by decide

theorem witness_LoadHalfAndWord :
    ((start [(1, 0x80002001#32)]).reg 1 + (0#16 : BitVec 16).signExtend 32) &&& 1#32 ≠ 0#32 ∧
    ((start [(1, 0x80002002#32)]).reg 1 + (0#16 : BitVec 16).signExtend 32) &&& 3#32 ≠ 0#32 ∧
    ((start [(1, 0x80002002#32)]).reg 1 + (0#16 : BitVec 16).signExtend 32) &&& 1#32 = 0#32 ∧
    inWordWindow ((start [(1, 0x80002002#32)]).reg 1 + (0#16 : BitVec 16).signExtend 32) = false ∧
    ((start [(1, 0x80002004#32)]).reg 1 + (0#16 : BitVec 16).signExtend 32) &&& 3#32 = 0#32 := by decide

/-- A state before an LWR r2, 0(r1) at the RAM address 0x1FFFFB, which is no multiple of 4. -/
def beforePair : State := start [(1, 0x801FFFFB#32)]

theorem witness_UnalignedLoadPair :
    (2 : RegIdx) ≠ 0 ∧ beforePair.slot1.target ≠ 1 ∧ (∀ c : Channel, beforePair.dma.chcr[c] = 0#32) ∧
    maskAddress (beforePair.reg 1 + (0#16 : BitVec 16).signExtend 32) = BitVec.ofNat 32 0x1FFFFB ∧
    0x1FFFFB + 3 < 0x200000 ∧ (3#16 : BitVec 16).signExtend 32 = (0#16 : BitVec 16).signExtend 32 + 3#32 := by decide

/-- The second instruction's fetch, in the tick after each of the two. -/
theorem witness_UnalignedLoadPair_fetch :
    (∃ t w s1, exec (.lwr 2 1 0#16) beforePair = .next t ∧
      t.endTick.beginTick.busRead t.endTick.pc .word = .ok (w, s1)) ∧
    ∃ t w s1, exec (.lwl 2 1 3#16) beforePair = .next t ∧
      t.endTick.beginTick.busRead t.endTick.pc .word = .ok (w, s1) :=
  ⟨⟨_, _, _, rfl, rfl⟩, _, _, _, rfl, rfl⟩

theorem witness_Stores :
    inWordWindow ((start [(1, 0x80002001#32)]).reg 1 + (0#16 : BitVec 16).signExtend 32) = false ∧
    isolated.isolates (isolated.reg 0 + (0x1080#16 : BitVec 16).signExtend 32) = true ∧
    ((start [(1, 0x80002001#32)]).reg 1 + (0#16 : BitVec 16).signExtend 32) &&& 1#32 ≠ 0#32 ∧
    ((start [(1, 0x80002002#32)]).reg 1 + (0#16 : BitVec 16).signExtend 32) &&& 1#32 = 0#32 ∧
    ((start [(1, 0x80002002#32)]).reg 1 + (0#16 : BitVec 16).signExtend 32) &&& 3#32 ≠ 0#32 ∧
    ((start [(1, 0x80002004#32)]).reg 1 + (0#16 : BitVec 16).signExtend 32) &&& 3#32 = 0#32 := by decide

/-- BPC and SR are writable, EPC is not: both sides of the mask (R126). -/
theorem witness_Cop0WriteIsMasked : writeMask 14 = 0#32 ∧ writeMask 12 ≠ 0#32 ∧ writeMask 13 = 0x300#32 := by decide

/-- Instructions on both sides of every premise of FrameRegisters. -/
theorem witness_FrameRegisters :
    (∃ t, exec (.mult 1 2) (start []) = .next t) ∧ directDest (.mult 1 2) ≠ some 3 ∧ isDelayedWriter (.mult 1 2) = false ∧
    directDest (.mult 1 2) ≠ some (start []).slot1.target ∧ writesHi (.addu 1 2 3) = false ∧ writesLo (.mthi 1) = false :=
  ⟨⟨_, rfl⟩, by decide, by decide, by decide, by decide, by decide⟩

theorem witness_FrameControl :
    (∃ t, exec (.addu 1 2 3) (start []) = .next t) ∧ mayRaise (.addu 1 2 3) = false ∧ isBranch (.addu 1 2 3) = false ∧
    mayWriteCop0 (.mtc0 1 12) 13 = false ∧ mayWriteCop0 (.add 1 2 3) 15 = false :=
  ⟨⟨_, rfl⟩, by decide, by decide, by decide, by decide⟩

theorem witness_FrameMemory :
    (∃ t, exec (.sw 3 1 0#16) (start [(1, 0x80002000#32)]) = .next t) ∧
    storeOf (.sw 3 1 0#16) (start [(1, 0x80002000#32)]) = some (0x80002000#32, .word) ∧
    0x2004 ∉ (start [(1, 0x80002000#32)]).storedBytes 0x80002000#32 .word ∧
    storeOf (.addu 1 2 3) (start []) = none ∧ isLoad (.addu 1 2 3) = false :=
  ⟨⟨_, rfl⟩, by decide, by decide, by decide, by decide⟩

theorem witness_ResetState : ram.holds 0x1FFFFF ∧ scratchpad.holds 0x1F8003FF ∧ ¬ ram.holds 0x200000 := by decide

/-- A file of exactly its header, with size 0; and no file. -/
theorem witness_SideLoad :
    payloadBytes .words (le32 (List.replicate 0x800 (0#8 : Byte)) 0x1C) = 0 ∧
    0x800 + 0 ≤ (List.replicate 0x800 (0#8 : Byte)).length ∧ ([] : List Byte).length < 0x800 + payloadBytes .words (le32 [] 0x1C) := by
  refine ⟨?_, by rw [List.length_replicate], by decide⟩
  simp only [le32, List.getD_eq_getElem?_getD, List.getElem?_replicate]; decide

/-- A file with a payload of one word, `04 03 02 01`, loaded at RAM byte 0. -/
def oneWordFile : List Byte :=
  List.replicate 0x1C 0#8 ++ [1#8, 0#8, 0#8, 0#8] ++ List.replicate 0x7E0 0#8 ++ [4#8, 3#8, 2#8, 1#8]

theorem witness_SideLoad_payload :
    payloadBytes .words (le32 oneWordFile 0x1C) = 4 ∧ 0x800 + 4 ≤ oneWordFile.length ∧ oneWordFile[0x803]? = some 1#8 := by
  decide +kernel

/-- A launch whose executable would be applied before tick 7: with `oneWordFile` complete, with its header alone short. -/
def launchOf (file : List Byte) : Launch := ⟨List.replicate 524288 0#8, some file, 7, .words⟩

theorem witness_LaunchWithAnExecutable :
    (launchOf oneWordFile).exeImage = some oneWordFile ∧
    (launchOf oneWordFile).biosImage.length = 524288 ∧ 0x800 + 4 ≤ oneWordFile.length ∧
    (le32 oneWordFile 0x1C * 4#32).toNat = 4 :=
  ⟨rfl, List.length_replicate, by decide +kernel, by decide +kernel⟩

theorem witness_LaunchWithAnExecutable_short :
    (launchOf (oneWordFile.take 0x800)).exeImage = some (oneWordFile.take 0x800) ∧
    (oneWordFile.take 0x800).length < 0x800 + (le32 (oneWordFile.take 0x800) 0x1C * 4#32).toNat :=
  ⟨rfl, by decide +kernel⟩

/-- A short executable leaves the launch no run, though it would be applied before a later tick only (R1221). -/
theorem test_short_executable_has_no_run : (launchOf (oneWordFile.take 0x800)).run 3 = none :=
  Launch.run_of_start_none (Launch.start_none_of_short (file := oneWordFile.take 0x800) rfl (by decide +kernel)) 3

end Sys2Proof.Tests
end

section
/-!
PROOFS of the family 10_state.md: BIOS ROM (R136), EPC (R130) and the masked COP0 write (R126). First the rules they
share: what a step did, as one Effect, and which effects reach COP0 or BIOS ROM; then the three statements.
-/

namespace Sys2Proof.Machine

/-! ### The step as one effect -/

/-- What a step that answers a next state did, whether its fetch answered or faulted: one effect on the prepared state,
which the fetch left but for the diagnostics and the draw counter, and then the end of the tick. -/
theorem step_effect {s t : State} (h : step s = .next t) :
    ∃ s1 e, s1 = { s.beginTick with outputs := s1.outputs, draws := s1.draws } ∧ Effect s1 e ∧ t = e.endTick := by
  obtain ⟨-, ⟨-, w, s1, i, e, hfetch, -, hexec, rfl⟩ | ⟨-, rfl⟩⟩ := step_cases h
  · exact ⟨s1, e, State.fetch_spec hfetch, exec_effect i s1 e hexec, rfl⟩
  · exact ⟨s.beginTick, _, rfl, .trapped _ rfl, rfl⟩

/-! ### The COP0 write and its mask (R126) -/

/-- Writing back what a COP0 register holds changes nothing. -/
theorem State.setCop0_cop0At_self (s : State) (i : RegIdx) : s.setCop0 i (s.cop0At i) = s := by
  have h : s.cop0.set i s.cop0[i] = s.cop0 := Vector.set_getElem_self _
  unfold State.setCop0 State.cop0At
  rw [h]

/-- A write under an empty mask changes nothing. -/
theorem State.writeCop0_of_mask_zero (s : State) {i : RegIdx} (v : Word) (h : writeMask i = 0#32) :
    s.writeCop0 i v = s := by
  have hold : (s.cop0At i &&& ~~~ (0#32)) ||| (v &&& 0#32) = s.cop0At i := by
    rw [BitVec.not_zero, BitVec.and_allOnes, BitVec.and_zero, BitVec.or_zero]
  unfold State.writeCop0
  rw [h, hold, State.setCop0_cop0At_self]

/-! ### EPC (R130) -/

/-- The effects that reach COP0: MTC0, RFE and exception entry. -/
theorem Effect.cop0_cases {s t : State} (h : Effect s t) :
    t.cop0 = s.cop0 ∨ (∃ i v, t = s.writeCop0 i v) ∨ t = s.popModeStack ∨ ∃ e, t = s.enterException e := by
  cases h with
  | cop0 i v h => exact .inr (.inl ⟨i, v, h⟩)
  | popped h => exact .inr (.inr (.inl h))
  | trapped e h => exact .inr (.inr (.inr ⟨e, h⟩))
  | direct d v h => exact .inl (by simp [h])
  | hiLo hi lo h => exact .inl (by simp [h])
  | delayed rt v outs n h => exact .inl (by simp [h])
  | branch c target h => exact .inl (by simp [h])
  | link d v c target h => exact .inl (by simp [h])
  | stored addr width mem dma outs n h => exact .inl (by simp [h])

/-- EPC is not writable: an MTC0 to any register leaves it. -/
theorem State.epc_writeCop0 (s : State) (i : RegIdx) (v : Word) :
    (s.writeCop0 i v).cop0At epcIdx = s.cop0At epcIdx := by
  by_cases hi : i = epcIdx
  · subst hi; rw [State.writeCop0_of_mask_zero s v (by decide)]
  · rw [State.cop0At_writeCop0, if_neg (Ne.symm hi)]

/-- RFE writes SR only. -/
theorem State.epc_popModeStack (s : State) : s.popModeStack.cop0At epcIdx = s.cop0At epcIdx := by
  rw [State.cop0At_popModeStack, if_neg (by decide)]

/-- EPC after exception entry (R1211). -/
theorem State.epc_enterException (s : State) (e : Exc) :
    (s.enterException e).cop0At epcIdx = epcOnEntry s.pc s.branchDelay := by
  rw [State.cop0At_enterException, if_neg (by decide), if_pos rfl]

/-- An effect leaves EPC or is an exception entry. -/
theorem Effect.epc {s t : State} (h : Effect s t) :
    t.cop0At epcIdx = s.cop0At epcIdx ∨
    ∃ e, t = s.enterException e ∧ t.cop0At epcIdx = epcOnEntry s.pc s.branchDelay := by
  obtain h | ⟨i, v, rfl⟩ | rfl | ⟨e, rfl⟩ := h.cop0_cases
  · exact .inl (State.cop0At_of_cop0 h _)
  · exact .inl (State.epc_writeCop0 s i v)
  · exact .inl (State.epc_popModeStack s)
  · exact .inr ⟨e, rfl, State.epc_enterException s e⟩

/-- A step leaves EPC or enters an exception; the delay slot is told by `branch` before the step (R403). -/
theorem step_epc {s t : State} (h : step s = .next t) :
    t.cop0At epcIdx = s.cop0At epcIdx ∨ t.cop0At epcIdx = epcOnEntry s.pc s.branch := by
  obtain ⟨s1, e, hs1, heff, rfl⟩ := step_effect h
  have hcop0 : s1.cop0 = s.cop0 := by rw [hs1]; exact s.beginTick_cop0
  have hpc : s1.pc = s.pc := by rw [hs1]; exact s.beginTick_pc
  have hdelay : s1.branchDelay = s.branch := by rw [hs1]; exact s.beginTick_branchDelay
  rw [State.cop0At_of_cop0 e.endTick_cop0, ← State.cop0At_of_cop0 hcop0, ← hpc, ← hdelay]
  exact heff.epc.imp_right fun ⟨_, _, hepc⟩ => hepc

/-! ### BIOS ROM (R136, R216) -/

/-- No byte of BIOS ROM is a byte of RAM (R211). -/
theorem not_ram_of_bios {a : Nat} (ha : bios.holds a) : ¬ ram.holds a := by
  simp only [ByteDevice.holds, ram, bios] at ha ⊢; omega

/-- A bus store leaves BIOS ROM. -/
theorem State.busWrite_readByte_bios {s t : State} {addr v : Word} {width : Width} {a : Nat}
    (h : s.busWrite addr width v = .ok t) (ha : bios.holds a) : t.readByte a = s.readByte a := by
  obtain ⟨-, -, -, hother⟩ := State.busWrite_spec h
  exact hother a (s.storedBytes_not_bios addr width ha)

/-- Only a store reaches memory at all, and no store reaches BIOS ROM. -/
theorem Effect.readByte_bios {s t : State} {a : Nat} (h : Effect s t) (ha : bios.holds a) :
    t.readByte a = s.readByte a := by
  cases h with
  | stored addr width mem dma outs n h hwf hloc hother =>
    rw [h]; exact hother a (s.storedBytes_not_bios addr width ha)
  | direct d v h => exact State.readByte_of_mem (by simp [h]) a
  | hiLo hi lo h => exact State.readByte_of_mem (by simp [h]) a
  | delayed rt v outs n h => exact State.readByte_of_mem (by simp [h]) a
  | branch c target h => exact State.readByte_of_mem (by simp [h]) a
  | link d v c target h => exact State.readByte_of_mem (by simp [h]) a
  | cop0 i v h => exact State.readByte_of_mem (by simp [h]) a
  | popped h => exact State.readByte_of_mem (by simp [h]) a
  | trapped e h => exact State.readByte_of_mem (by simp [h]) a

/-- A step leaves BIOS ROM: its effect does, and the DMA pump writes RAM only (R241). -/
theorem step_readByte_bios {s t : State} {a : Nat} (h : step s = .next t) (ha : bios.holds a) :
    t.readByte a = s.readByte a := by
  obtain ⟨s1, e, hs1, heff, rfl⟩ := step_effect h
  have hmem : s1.mem = s.mem := by rw [hs1]; exact s.beginTick_mem
  calc e.endTick.readByte a
    _ = e.readByte a := e.endTick_readByte_other (not_ram_of_bios ha)
    _ = s1.readByte a := heff.readByte_bios ha
    _ = s.readByte a := State.readByte_of_mem hmem a

/-! ### The launch image in BIOS ROM (R1302) -/

theorem le_of_mem_cellsFrom {base : Nat} {bytes : List Byte} {c : Host.Cell} (h : c ∈ cellsFrom base bytes) :
    base ≤ c.1 := by
  induction bytes generalizing base with
  | nil => cases h
  | cons b rest ih =>
    rcases List.mem_cons.mp h with rfl | h
    · exact le_rfl
    · exact (Nat.le_succ base).trans (ih h)

/-- Bytes written from `base` up are read back: byte `k` at `base + k`. -/
theorem Memory.read_writeAll_cellsFrom {bytes : List Byte} {k : Nat} {b : Byte} (h : bytes[k]? = some b) (base : Nat)
    (m : Memory) : (m.writeAll (cellsFrom base bytes)).read (base + k) = b := by
  induction bytes generalizing base k m with
  | nil => cases h
  | cons x rest ih =>
    unfold cellsFrom Memory.writeAll
    cases k with
    | zero =>
      have hx : x = b := Option.some.inj h
      have hlater : ∀ c ∈ cellsFrom (base + 1) rest, c.1 ≠ base :=
        fun c hc => Nat.ne_of_gt (le_of_mem_cellsFrom hc)
      show ((m.write base x).writeAll (cellsFrom (base + 1) rest)).read base = b
      rw [Memory.read_writeAll_other _ _ hlater, Memory.read_write, if_pos rfl, hx]
    | succ k =>
      rw [← Nat.add_assoc, Nat.add_right_comm]
      exact ih h (base + 1) _

/-- Byte `k` of BIOS ROM after reset is byte `k` of an image that fits. -/
theorem State.readByte_resetWithBios {image : List Byte} (hlen : image.length ≤ bios.size) {k : Nat} {b : Byte}
    (h : image[k]? = some b) : (State.resetWithBios image).readByte (bios.base + k) = b := by
  show (biosMemory image).read (bios.base + k) = b
  unfold biosMemory
  rw [List.take_of_length_le hlen]
  exact Memory.read_writeAll_cellsFrom h bios.base []

/-- A launch without a full image has no start state (R136). -/
theorem Launch.start_none_of_bios_length {p : Launch} (h : p.biosImage.length ≠ bios.size) : p.start = none :=
  Option.eq_none_iff_forall_ne_some.mpr fun _ hs => h (Launch.start_eq_some.mp hs).1

/-- The run of no ticks is the start state. -/
theorem Launch.run_zero_of_start {p : Launch} {s : State} (h : p.start = some s) : p.run 0 = some (.next s) := by
  unfold Launch.run
  rw [h]
  rfl

end Sys2Proof.Machine

namespace Sys2Proof.Proofs

open Sys2Proof.Machine

/-- Settles O15: the image is written to BIOS ROM at reset, and neither a store nor the DMA pump reaches it. -/
theorem biosIsTheImage : Obligations.BiosIsTheImage := by
  unfold Obligations.BiosIsTheImage
  refine ⟨rfl, fun p hlen => ?_, fun p hlen hfits => ?_, fun _ _ _ => step_readByte_bios,
    fun _ _ _ _ _ _ => State.busWrite_readByte_bios⟩
  · have hstart : p.start = none := Launch.start_none_of_bios_length hlen
    exact ⟨hstart, Launch.run_of_start_none hstart, Launch.observe_of_start_none hstart⟩
  · have hstart : p.start = some (State.resetWithBios p.biosImage) :=
      Launch.start_eq_some.mpr ⟨hlen, fun file hfile => exeFits_iff.mpr (hfits file hfile), rfl⟩
    exact ⟨_, hstart, rfl, Launch.run_zero_of_start hstart, fun _ _ => State.readByte_resetWithBios hlen.le⟩

/-- Settles O17, from the effects that reach COP0: MTC0's mask for EPC is empty and RFE writes SR. -/
theorem epcIsWrittenOnlyByEntry : Obligations.EpcIsWrittenOnlyByEntry := by
  unfold Obligations.EpcIsWrittenOnlyByEntry
  refine ⟨fun i s t h => (exec_effect i s t h).epc, fun _ _ => step_epc, fun rt s t h => ?_⟩
  obtain rfl : t = s.writeCop0 epcIdx (s.reg rt) := next_injective h
  exact s.epc_writeCop0 epcIdx (s.reg rt)

/-- Settles O52: the masked and the hardware write read back register by register. -/
theorem cop0WriteIsMasked : Obligations.Cop0WriteIsMasked := by
  unfold Obligations.Cop0WriteIsMasked
  intro s i j v
  exact ⟨s.cop0At_writeCop0 i v j, s.writeCop0_of_mask_zero v, rfl, s.cop0At_setCop0 i v j⟩

end Sys2Proof.Proofs
end

section
/-!
PROOFS of the family 20_memory.md: what RAM (R212) and the DMA registers (R231) answer and keep. First the rules of any
byte device (R210), which say a device read and a device store byte by byte, and of the bus at such a device; then those
of the DMA registers; then the two statements.
-/

namespace Sys2Proof.Machine

open Sys2Proof.Claims

/-! ### Byte devices (R202, R210) -/

/-- Of cells at distinct addresses, each is read back once all are written. -/
theorem Memory.read_writeAll_of_mem {cells : List Host.Cell} (hnodup : (cells.map Prod.fst).Nodup) {c : Host.Cell}
    (hc : c ∈ cells) (m : Memory) : (m.writeAll cells).read c.1 = c.2 := by
  induction cells generalizing m with
  | nil => cases hc
  | cons d rest ih =>
    obtain ⟨hd, hrest⟩ := List.nodup_cons.mp hnodup
    unfold Memory.writeAll
    rcases List.mem_cons.mp hc with rfl | hc
    · have hlater : ∀ e ∈ rest, e.1 ≠ c.1 := fun e he heq => hd (heq ▸ List.mem_map_of_mem he)
      rw [Memory.read_writeAll_other _ _ hlater, Memory.read_write, if_pos rfl]
    · exact ih hrest hc _

theorem Width.bytes_le_four (width : Width) : width.bytes ≤ 4 := by cases width <;> decide

/-- The bytes of one access do not meet, though the access may wrap at the end of its device. -/
theorem ByteDevice.cell_inj {d : ByteDevice} (hd : 4 ≤ d.size) {m j k : Nat} (hj : j < 4) (hk : k < 4)
    (h : d.cell m j = d.cell m k) : j = k :=
  have hmod : m + j ≡ m + k [MOD d.size] := Nat.add_left_cancel h
  (hmod.add_left_cancel' m).eq_of_lt_of_lt (hj.trans_le hd) (hk.trans_le hd)

theorem nodup_storeCells {d : ByteDevice} (hd : 4 ≤ d.size) (m : Word) (width : Width) (v : Word) :
    ((storeCells d m width v).map Prod.fst).Nodup := by
  have hlt : ∀ {k}, k ∈ List.range width.bytes → k < 4 :=
    fun hk => (List.mem_range.mp hk).trans_le width.bytes_le_four
  unfold storeCells
  rw [List.map_map]
  exact List.nodup_range.map_on fun _ hj _ hk => ByteDevice.cell_inj hd (hlt hj) (hlt hk)

/-- Byte `k` of an access after a store there is byte `k` of the value stored. -/
theorem readDeviceByte_writeDevice {d : ByteDevice} (hd : 4 ≤ d.size) (mem : Memory) (m : Word) {width : Width}
    (v : Word) {k : Nat} (hk : k < width.bytes) :
    readDeviceByte (writeDevice mem d m width v) d m k = byteOfWord v k :=
  Memory.read_writeAll_of_mem (nodup_storeCells hd m width v) (mem_storeCells.mpr ⟨k, hk, rfl⟩) mem

/-- A word stored is read back, at any address. -/
theorem readDevice_writeDevice_word {d : ByteDevice} (hd : 4 ≤ d.size) (mem : Memory) (m v : Word) :
    readDevice (writeDevice mem d m .word v) d m .word = v := by
  have hbyte : ∀ k, k < 4 → readDeviceByte (writeDevice mem d m .word v) d m k = byteOfWord v k :=
    fun _ => readDeviceByte_writeDevice hd mem m v (width := .word)
  unfold readDevice
  dsimp only
  rw [hbyte 0 (by decide), hbyte 1 (by decide), hbyte 2 (by decide), hbyte 3 (by decide)]
  exact wordOfBytes_byteOfWord v

/-- The sum over an access has one term more for each byte more. -/
theorem littleEndian_succ (s : State) (d : ByteDevice) (addr : Word) (n : Nat) :
    littleEndian s d addr (n + 1) = littleEndian s d addr n + (byteAt s d addr n).toNat * 2 ^ (8 * n) :=
  List.sum_range_succ _ n

/-- A device read is the little-endian sum of its bytes. -/
theorem readDevice_toNat (s : State) (d : ByteDevice) (addr : Word) (width : Width) :
    (readDevice s.mem d (maskAddress addr) width).toNat = littleEndian s d addr width.bytes := by
  have hbyte : ∀ k, readDeviceByte s.mem d (maskAddress addr) k = byteAt s d addr k := fun _ => rfl
  have hzero : littleEndian s d addr 0 = 0 := rfl
  have hlt : ∀ k, (byteAt s d addr k).toNat < 256 := fun k => (byteAt s d addr k).isLt
  unfold readDevice
  cases width <;>
    simp only [Width.bytes, littleEndian_succ, hzero, hbyte, BitVec.toNat_setWidth, toNat_append]
  case byte => have := hlt 0; omega
  case half => have := hlt 0; have := hlt 1; omega
  case word => omega

/-! ### The bus at a byte device -/

/-- A read of a region that stores bytes is the read of its device, and leaves the state (R212, R213, R215). -/
theorem State.busRead_of_device {addr : Word} {d : ByteDevice} (h : deviceOf (regionOf (maskAddress addr)) = some d)
    (s : State) (width : Width) : s.busRead addr width = .ok (readDevice s.mem d (maskAddress addr) width, s) := by
  unfold State.busRead
  dsimp only
  cases hr : regionOf (maskAddress addr) <;> rw [hr] at h <;> cases h <;> rfl

/-- A store that the gate lets pass to a device other than BIOS ROM is the store to that device (R212, R213). -/
theorem State.busWrite_of_device {s : State} {addr : Word} {d : ByteDevice}
    (h : deviceOf (regionOf (maskAddress addr)) = some d) (hd : d ≠ bios) (hgate : s.isolates addr = false)
    (width : Width) (v : Word) :
    s.busWrite addr width v = .ok { s with mem := writeDevice s.mem d (maskAddress addr) width v } := by
  unfold State.busWrite
  rw [hgate]
  dsimp only [Bool.false_eq_true]
  cases hr : regionOf (maskAddress addr) <;> rw [hr] at h <;> cases h
  · rfl
  · rfl
  · exact absurd rfl hd

/-- RAM's addresses (R211). -/
theorem deviceOf_ram {addr : Word} (h : (maskAddress addr).toNat < 0x00200000) :
    deviceOf (regionOf (maskAddress addr)) = some ram := by
  have hr : regionOf (maskAddress addr) = .ram := if_pos h
  rw [hr]; rfl

/-! ### DMA registers (R231) -/

/-- A DMA register written takes the value, and every other keeps its own. -/
theorem readDma_writeDma (d : DmaRegs) (r : DmaReg) (v : Word) (q : DmaReg) :
    readDma (writeDma d r v) q = if q = r then v else readDma d q := by
  unfold readDma writeDma
  -- Two registers of one kind are entries of one vector; two of different kinds are different fields.
  cases r <;> cases q <;>
    simp only [vector_get_set, DmaReg.madr.injEq, DmaReg.bcr.injEq, DmaReg.chcr.injEq, reduceCtorEq, if_true, if_false]

theorem State.busRead_of_dma {addr : Word} {r : DmaReg} (hregion : regionOf (maskAddress addr) = .dma)
    (hreg : dmaRegAt (maskAddress addr) = some r) (s : State) :
    s.busRead addr .word = .ok (readDma s.dma r, s) := by
  unfold State.busRead State.readDmaWord
  dsimp only
  rw [hregion, hreg]; rfl

theorem State.busWrite_of_dma {s : State} {addr : Word} {r : DmaReg} (hregion : regionOf (maskAddress addr) = .dma)
    (hreg : dmaRegAt (maskAddress addr) = some r) (hgate : s.isolates addr = false) (v : Word) :
    s.busWrite addr .word v = .ok { s with dma := writeDma s.dma r v } := by
  unfold State.busWrite State.writeDmaWord
  rw [hgate]
  dsimp only
  rw [hregion, hreg]; rfl

end Sys2Proof.Machine

namespace Sys2Proof.Proofs

open Sys2Proof.Machine

/-- Settles O21: RAM is a byte device, whose reads and stores go byte by byte. -/
theorem ramReadsAndStores : Obligations.RamReadsAndStores := by
  unfold Obligations.RamReadsAndStores
  intro s addr v width haddr
  have hdevice := deviceOf_ram haddr
  have hsize : 4 ≤ ram.size := by decide
  refine ⟨⟨_, State.busRead_of_device hdevice s width, readDevice_toNat s ram addr width⟩, fun hgate =>
    ⟨_, State.busWrite_of_device hdevice (by decide) hgate width v, rfl, ?_, ?_, ?_⟩⟩
  · exact fun k => readDeviceByte_writeDevice hsize s.mem (maskAddress addr) v
  · intro a ha
    refine read_writeDevice_other fun hmem => ?_
    obtain ⟨k, hk, rfl⟩ := List.mem_map.mp hmem
    exact ha k (List.mem_range.mp hk) (Nat.zero_add _)
  · rintro rfl -
    rw [State.busRead_of_device hdevice, readDevice_writeDevice_word hsize]

/-- Settles O25: one register of the block is read and one is set. -/
theorem dmaRegistersReadBack : Obligations.DmaRegistersReadBack := by
  unfold Obligations.DmaRegistersReadBack
  intro s addr v r hregion hreg
  refine ⟨State.busRead_of_dma hregion hreg s, fun hgate =>
    ⟨_, State.busWrite_of_dma hregion hreg hgate v, rfl, readDma_writeDma s.dma r v, ?_⟩⟩
  rw [State.busRead_of_dma hregion hreg, readDma_writeDma, if_pos rfl]

end Sys2Proof.Proofs
end

section
/-!
PROOFS of the family 40_tick.md: recording a branch and resolving it at the end of its delay slot (R411). First what the
effects leave of the delay-slot flag and the two ways a tick can end; then the statement.
-/

namespace Sys2Proof.Machine

/-- No effect reaches the delay-slot flag: only the start of a tick sets it (R403). -/
theorem Effect.branchDelay {s t : State} (h : Effect s t) : t.branchDelay = s.branchDelay := by
  cases h with
  | direct d v h => simp [h]
  | hiLo hi lo h => simp [h]
  | delayed rt v outs n h => simp [h]
  | branch c target h => simp [h]
  | link d v c target h => simp [h]
  | stored addr width mem dma outs n h => simp [h]
  | cop0 i v h => simp [h]
  | popped h => simp [h]
  | trapped e h => simp [h]

/-- A delay slot without exception ends at the recorded target, with no branch pending. -/
theorem State.endTick_of_resolves {s : State} (hdelay : s.branchDelay = true) (htrapped : s.trapped = false) :
    s.endTick.pc = s.branchAddress ∧ s.endTick.branch = false := by
  have hresolves : (s.branchDelay && !s.trapped) = true := by rw [hdelay, htrapped]; rfl
  exact ⟨s.endTick_pc.trans (if_pos hresolves), s.endTick_branch.trans (if_pos hresolves)⟩

/-- Any other tick ends at `pc + 4` and keeps a branch pending. -/
theorem State.endTick_of_not_resolves {s : State} (h : s.branchDelay = false ∨ s.trapped = true) :
    s.endTick.pc = s.pc + 4#32 ∧ s.endTick.branch = s.branch := by
  have hresolves : ¬ (s.branchDelay && !s.trapped) = true := by
    obtain hdelay | htrapped := h
    · simp [hdelay]
    · simp [htrapped]
  exact ⟨s.endTick_pc.trans (if_neg hresolves), s.endTick_branch.trans (if_neg hresolves)⟩

end Sys2Proof.Machine

namespace Sys2Proof.Proofs

open Sys2Proof.Machine

/-- Settles O8: an instruction has one effect, none of which reaches the delay-slot flag, and the end of the tick
resolves the branch exactly in a delay slot without exception. -/
theorem branchResolution : Obligations.BranchResolution := by
  unfold Obligations.BranchResolution
  exact fun s => ⟨fun _ => rfl, ⟨s.beginTick_branchDelay, s.beginTick_branch⟩,
    fun i t h => (exec_effect i s t h).branchDelay, State.endTick_of_resolves, State.endTick_of_not_resolves⟩

end Sys2Proof.Proofs
end

section
/-!
PROOFS of the family 41_arith.md: add, subtract and compare (R500 to R506), and the words the spec writes out. First what
the two ends of an arithmetic instruction are, a direct write and an exception raised with nothing written; then the one
choice between them that the trapping forms share; then the three statements.
-/

namespace Sys2Proof.Machine

open Sys2Proof.Claims

/-! ### The direct write and the raised exception -/

/-- A direct write changes the registers, slot1 and the note of it, and nothing else. -/
theorem State.writeReg_eq (s : State) (d : RegIdx) (v : Word) :
    s.writeReg d v = { s with
      regs := (s.writeReg d v).regs
      slot1 := (s.writeReg d v).slot1
      directWritten := (s.writeReg d v).directWritten } := by
  unfold State.writeReg State.putReg
  split <;> rfl

theorem State.directWrite_writeReg (s : State) (d : RegIdx) (v : Word) : DirectWrite s d v (s.writeReg d v) := by
  refine ⟨s.reg_writeReg d v, s.slot1_writeReg d v, ?_, s.writeReg_eq d v, State.readByte_of_mem (s.writeReg_mem d v)⟩
  rw [State.directWritten_writeReg, ite_not]

theorem State.raised_enterException (s : State) (e : Exc) : Raised s e (s.enterException e) :=
  ⟨rfl, State.reg_of_regs (s.enterException_regs e), s.enterException_slot0 e, s.enterException_slot1 e,
    State.readByte_of_mem (s.enterException_mem e)⟩

/-! ### Answers of an arithmetic instruction -/

/-- An instruction that answers a direct write's state completes with that write. -/
theorem completes_of_writeReg {r : Result} {s : State} {d : RegIdx} {v : Word} (h : r = .next (s.writeReg d v)) :
    ∃ t, r = .next t ∧ DirectWrite s d v t :=
  ⟨_, h, s.directWrite_writeReg d v⟩

/-- An instruction that traps on `c` and else writes does the one or the other, and never both (R510, R511). -/
theorem writes_or_raises {r : Result} {s : State} {c : Bool} {e : Exc} {d : RegIdx} {v : Word}
    (h : r = if c then .next (s.enterException e) else .next (s.writeReg d v)) :
    (c = false → ∃ t, r = .next t ∧ DirectWrite s d v t) ∧ (c = true → ∃ t, r = .next t ∧ Raised s e t) := by
  refine ⟨?_, ?_⟩
  · rintro rfl
    exact completes_of_writeReg h
  · rintro rfl
    exact ⟨_, h, s.raised_enterException e⟩

theorem exec_add (rd rs rt : RegIdx) (s : State) :
    exec (.add rd rs rt) s = if addOverflows (s.reg rs) (s.reg rt) then .next (s.enterException .overflow)
      else .next (s.writeReg rd (s.reg rs + s.reg rt)) := rfl

theorem exec_addi (rt rs : RegIdx) (imm : BitVec 16) (s : State) :
    exec (.addi rt rs imm) s = if addOverflows (s.reg rs) (sext16 imm) then .next (s.enterException .overflow)
      else .next (s.writeReg rt (s.reg rs + sext16 imm)) := rfl

theorem exec_addu (rd rs rt : RegIdx) (s : State) :
    exec (.addu rd rs rt) s = .next (s.writeReg rd (s.reg rs + s.reg rt)) := rfl

theorem exec_subu (rd rs rt : RegIdx) (s : State) :
    exec (.subu rd rs rt) s = .next (s.writeReg rd (s.reg rs - s.reg rt)) := rfl

theorem exec_slt (rd rs rt : RegIdx) (s : State) :
    exec (.slt rd rs rt) s =
      .next (s.writeReg rd (if (s.reg rs).toInt < (s.reg rt).toInt then 1#32 else 0#32)) := by
  rw [exec, execSlt, wordOfBool_lessSigned]

theorem exec_sltu (rd rs rt : RegIdx) (s : State) :
    exec (.sltu rd rs rt) s =
      .next (s.writeReg rd (if (s.reg rs).toNat < (s.reg rt).toNat then 1#32 else 0#32)) := by
  rw [exec, execSltu, wordOfBool_lessUnsigned]

end Sys2Proof.Machine

namespace Sys2Proof.Proofs

open Sys2Proof.Machine

/-- Settles O29: each of the four answers the state of one direct write, in every state. -/
theorem registerArithmetic : Obligations.RegisterArithmetic := by
  unfold Obligations.RegisterArithmetic
  intro s rd rs rt
  exact ⟨completes_of_writeReg (exec_addu rd rs rt s), completes_of_writeReg (exec_subu rd rs rt s),
    completes_of_writeReg (exec_slt rd rs rt s), completes_of_writeReg (exec_sltu rd rs rt s)⟩

/-- Settles O30: the sign-bit test of R500 is the model's addOverflows, which chooses between the write and the trap. -/
theorem addAndAddi : Obligations.AddAndAddi := by
  unfold Obligations.AddAndAddi
  intro s rd rs rt imm
  exact ⟨writes_or_raises (exec_add rd rs rt s), writes_or_raises (exec_addi rt rs imm s)⟩

/-- Settles O1: decoding computes, and each of the words is closed. -/
theorem specWordsDecode : Obligations.SpecWordsDecode := by
  unfold Obligations.SpecWordsDecode
  decide

end Sys2Proof.Proofs
end

section
/-!
PROOFS of the family 42_muldiv.md: multiply (R600, R601, R610) and unsigned divide (R603, R612). First that `hi` and `lo`
hold the two halves of a product and that 64 bits suffice for it, and what the unsigned quotient and remainder are as
numbers; then the two statements.
-/

namespace Sys2Proof.Machine

open Sys2Proof.Claims

/-! ### Products (R610) -/

/-- `hi` and `lo` after a product is written are its two halves. -/
theorem State.pair_writeProduct (s : State) (p : BitVec 64) : pair (s.writeProduct p).hi (s.writeProduct p).lo = p :=
  (BitVec.extractLsb'_append_extractLsb'_eq_extractLsb' (start₁ := 0) rfl).trans BitVec.extractLsb'_eq_self

/-- A signed product lies in [-2^62, 2^62], so 64 bits hold it. -/
theorem toInt_signedProduct (a b : Word) : (signedProduct a b).toInt = a.toInt * b.toInt := by
  have hlower : -2 ^ 62 ≤ a.toInt * b.toInt := BitVec.le_toInt_mul_toInt
  have hupper : a.toInt * b.toInt ≤ 2 ^ 62 := BitVec.toInt_mul_toInt_le
  exact BitVec.toInt_ofInt_eq_self (by decide) (le_trans (by decide) hlower) (hupper.trans_lt (by decide))

theorem toNat_unsignedProduct (a b : Word) : (unsignedProduct a b).toNat = a.toNat * b.toNat :=
  Nat.mod_eq_of_lt BitVec.toNat_mul_toNat_lt

/-! ### Unsigned quotient and remainder (R603, R612) -/

theorem unsignedQuotient_zero (n : Word) : unsignedQuotient n 0#32 = 0xFFFFFFFF#32 := if_pos rfl

theorem unsignedRemainder_zero (n : Word) : unsignedRemainder n 0#32 = n := if_pos rfl

theorem toNat_unsignedQuotient {d : Word} (hd : d ≠ 0#32) (n : Word) :
    (unsignedQuotient n d).toNat = n.toNat / d.toNat := by
  have hlt : n.toNat / d.toNat < 2 ^ 32 := (Nat.div_le_self _ _).trans_lt n.isLt
  rw [unsignedQuotient, if_neg hd, BitVec.toNat_ofNat, Nat.mod_eq_of_lt hlt]

theorem toNat_unsignedRemainder {d : Word} (hd : d ≠ 0#32) (n : Word) :
    (unsignedRemainder n d).toNat = n.toNat % d.toNat := by
  have hlt : n.toNat % d.toNat < 2 ^ 32 := (Nat.mod_le _ _).trans_lt n.isLt
  rw [unsignedRemainder, if_neg hd, BitVec.toNat_ofNat, Nat.mod_eq_of_lt hlt]

/-! ### Answers of the instructions -/

theorem exec_mult (rs rt : RegIdx) (s : State) :
    exec (.mult rs rt) s = .next (s.writeProduct (signedProduct (s.reg rs) (s.reg rt))) := rfl

theorem exec_multu (rs rt : RegIdx) (s : State) :
    exec (.multu rs rt) s = .next (s.writeProduct (unsignedProduct (s.reg rs) (s.reg rt))) := rfl

theorem exec_divu (rs rt : RegIdx) (s : State) :
    exec (.divu rs rt) s = .next { s with
      hi := unsignedRemainder (s.reg rs) (s.reg rt)
      lo := unsignedQuotient (s.reg rs) (s.reg rt) } := rfl

/-- An instruction that writes a product changes `hi` and `lo` only, which together are the product. -/
theorem hiLo_of_writeProduct {r : Result} {s : State} {p : BitVec 64} (h : r = .next (s.writeProduct p)) :
    ∃ hi lo, r = .next { s with hi := hi, lo := lo } ∧ pair hi lo = p :=
  ⟨_, _, h, s.pair_writeProduct p⟩

end Sys2Proof.Machine

namespace Sys2Proof.Proofs

open Sys2Proof.Machine

/-- Settles O33: each writes one product, which 64 bits hold exactly. -/
theorem multiplyIsExact : Obligations.MultiplyIsExact := by
  unfold Obligations.MultiplyIsExact
  intro s rs rt
  obtain ⟨h, l, hexec, hpair⟩ := hiLo_of_writeProduct (exec_mult rs rt s)
  obtain ⟨hu, lu, hexecu, hpairu⟩ := hiLo_of_writeProduct (exec_multu rs rt s)
  refine ⟨⟨h, l, hexec, ?_⟩, ⟨hu, lu, hexecu, ?_⟩⟩
  · rw [hpair, toInt_signedProduct]
  · rw [hpairu, toNat_unsignedProduct]

/-- Settles O34, by the two cases of the divisor. -/
theorem divideUnsigned : Obligations.DivideUnsigned := by
  unfold Obligations.DivideUnsigned
  intro s rs rt
  refine ⟨_, _, exec_divu rs rt s, fun hzero => ?_, fun hd => ?_⟩
  · rw [hzero]
    exact ⟨unsignedRemainder_zero _, unsignedQuotient_zero _⟩
  · exact ⟨toNat_unsignedQuotient hd _, toNat_unsignedRemainder hd _⟩

end Sys2Proof.Proofs
end

section
/-!
PROOFS of the family 43_logic_shift.md: the logic instructions (R700 to R703), their immediate forms and LUI (R704 to
R707), and the shifts by the field `sa` (R708, R709, R712). First what a shift is as arithmetic on the value, for every
shift count; then the state that each instruction answers; then the three statements.
-/

namespace Sys2Proof.Machine

open Sys2Proof.Claims

/-! ### Shifts as arithmetic (R710) -/

/-- A left shift multiplies, modulo 2^32. -/
theorem toNat_shiftLeft_word (v : Word) (n : Nat) : (v <<< n).toNat = v.toNat * 2 ^ n % 2 ^ 32 := by
  rw [BitVec.toNat_shiftLeft, Nat.shiftLeft_eq]

/-- A logical right shift divides the unsigned value. -/
theorem toNat_ushiftRight_word (v : Word) (n : Nat) : (v >>> n).toNat = v.toNat / 2 ^ n := by
  rw [BitVec.toNat_ushiftRight, Nat.shiftRight_eq_div_pow]

/-- An arithmetic right shift divides the signed value, rounding down. -/
theorem toInt_sshiftRight_word (v : Word) (n : Nat) : (v.sshiftRight n).toInt = v.toInt / 2 ^ n := by
  rw [BitVec.toInt_sshiftRight, Int.shiftRight_eq_div_pow, Nat.cast_pow, Nat.cast_ofNat]

/-- The upper half is the immediate: no bit of it is shifted out (R707). -/
theorem toNat_zext16_shiftLeft (imm : BitVec 16) : (zext16 imm <<< 16).toNat = imm.toNat * 65536 := by
  have himm : imm.toNat < 65536 := imm.isLt
  rw [toNat_shiftLeft_word, zext16, BitVec.toNat_setWidth]
  omega

/-! ### Answers of the instructions -/

/-- An instruction that answers the direct write of `v` completes with that write and with whatever is known of `v`. -/
theorem completes_of_writeReg_value {P : Word → Prop} {r : Result} {s : State} {d : RegIdx} {v : Word}
    (h : r = .next (s.writeReg d v)) (hv : P v) : ∃ v t, r = .next t ∧ DirectWrite s d v t ∧ P v := by
  obtain ⟨t, hr, hwrite⟩ := completes_of_writeReg h
  exact ⟨v, t, hr, hwrite, hv⟩

theorem exec_and (rd rs rt : RegIdx) (s : State) :
    exec (.and rd rs rt) s = .next (s.writeReg rd (s.reg rs &&& s.reg rt)) := rfl

theorem exec_or (rd rs rt : RegIdx) (s : State) :
    exec (.or rd rs rt) s = .next (s.writeReg rd (s.reg rs ||| s.reg rt)) := rfl

theorem exec_xor (rd rs rt : RegIdx) (s : State) :
    exec (.xor rd rs rt) s = .next (s.writeReg rd (s.reg rs ^^^ s.reg rt)) := rfl

theorem exec_nor (rd rs rt : RegIdx) (s : State) :
    exec (.nor rd rs rt) s = .next (s.writeReg rd (~~~ (s.reg rs ||| s.reg rt))) := rfl

theorem exec_andi (rt rs : RegIdx) (imm : BitVec 16) (s : State) :
    exec (.andi rt rs imm) s = .next (s.writeReg rt (s.reg rs &&& imm.setWidth 32)) := rfl

theorem exec_ori (rt rs : RegIdx) (imm : BitVec 16) (s : State) :
    exec (.ori rt rs imm) s = .next (s.writeReg rt (s.reg rs ||| imm.setWidth 32)) := rfl

theorem exec_xori (rt rs : RegIdx) (imm : BitVec 16) (s : State) :
    exec (.xori rt rs imm) s = .next (s.writeReg rt (s.reg rs ^^^ imm.setWidth 32)) := rfl

theorem exec_lui (rt : RegIdx) (imm : BitVec 16) (s : State) :
    exec (.lui rt imm) s = .next (s.writeReg rt (zext16 imm <<< 16)) := rfl

theorem exec_sll (rd rt : RegIdx) (sa : Nat) (s : State) :
    exec (.sll rd rt sa) s = .next (s.writeReg rd (s.reg rt <<< sa)) := rfl

theorem exec_srl (rd rt : RegIdx) (sa : Nat) (s : State) :
    exec (.srl rd rt sa) s = .next (s.writeReg rd (s.reg rt >>> sa)) := rfl

theorem exec_sra (rd rt : RegIdx) (sa : Nat) (s : State) :
    exec (.sra rd rt sa) s = .next (s.writeReg rd ((s.reg rt).sshiftRight sa)) := rfl

end Sys2Proof.Machine

namespace Sys2Proof.Proofs

open Sys2Proof.Machine

/-- Settles O38: the three immediate forms write as they stand, and LUI's shift is a product that fits 32 bits. -/
theorem logicImmediatesAndLui : Obligations.LogicImmediatesAndLui := by
  unfold Obligations.LogicImmediatesAndLui
  intro s rt rs imm
  exact ⟨completes_of_writeReg (exec_andi rt rs imm s), completes_of_writeReg (exec_ori rt rs imm s),
    completes_of_writeReg (exec_xori rt rs imm s),
    completes_of_writeReg_value (exec_lui rt imm s) (toNat_zext16_shiftLeft imm)⟩

/-- Settles O39: each shift is its arithmetic for every count, so for every one the field `sa` holds. -/
theorem shiftsByAmount : Obligations.ShiftsByAmount := by
  unfold Obligations.ShiftsByAmount
  intro s rd rt sa _
  exact ⟨completes_of_writeReg_value (exec_sll rd rt sa s) (toNat_shiftLeft_word _ sa),
    completes_of_writeReg_value (exec_srl rd rt sa s) (toNat_ushiftRight_word _ sa),
    completes_of_writeReg_value (exec_sra rd rt sa s) (toInt_sshiftRight_word _ sa)⟩

/-- Settles O37, by the bits of each bitwise operation; only NOR's negation needs the bit to be one of the 32. -/
theorem logicBitByBit : Obligations.LogicBitByBit := by
  unfold Obligations.LogicBitByBit
  intro s rd rs rt
  refine ⟨completes_of_writeReg_value (exec_and rd rs rt s) fun _ _ => BitVec.getLsbD_and,
    completes_of_writeReg_value (exec_or rd rs rt s) fun _ _ => BitVec.getLsbD_or,
    completes_of_writeReg_value (exec_xor rd rs rt s) fun _ _ => BitVec.getLsbD_xor,
    completes_of_writeReg_value (exec_nor rd rs rt s) fun k hk => ?_⟩
  rw [BitVec.getLsbD_not, BitVec.getLsbD_or, decide_eq_true hk, Bool.true_and]

end Sys2Proof.Proofs
end

section
/-!
PROOFS of the family 44_load.md: the byte loads LB and LBU (R802, R810, R811). First what the bus answers a narrow read,
inside the windows of word registers and outside them; then what a load makes of the bus's answer, for every load; then
the statement.
-/

namespace Sys2Proof.Machine

open Sys2Proof.Claims

/-! ### Narrow reads of the bus (R206, R233, R237) -/

/-- A narrow read of the DMA window is refused (R233). -/
theorem State.busRead_narrow_of_dma {addr : Word} (hregion : regionOf (maskAddress addr) = .dma) {width : Width}
    (hwidth : width ≠ .word) (s : State) : s.busRead addr width = .error .narrowDmaAccess := by
  unfold State.busRead
  dsimp only
  rw [hregion]
  exact if_neg hwidth

/-- A narrow read of the GPU window is refused (R237). -/
theorem State.busRead_narrow_of_gpu {addr : Word} (hregion : regionOf (maskAddress addr) = .gpu) {width : Width}
    (hwidth : width ≠ .word) (s : State) : s.busRead addr width = .error .narrowGpuAccess := by
  unfold State.busRead
  dsimp only
  rw [hregion]
  exact if_neg hwidth

/-- Outside the windows of word registers a byte read answers one byte, zero-extended: a device's, or one drawn. -/
theorem State.busRead_byte_answers {addr : Word} (h : inWordWindow addr = false) (s : State) :
    ∃ (b : Byte) (u : State), s.busRead addr .byte = .ok (b.setWidth 32, u) := by
  unfold inWordWindow at h
  unfold State.busRead
  dsimp only
  cases hregion : regionOf (maskAddress addr) <;> rw [hregion] at h
  case ram => exact ⟨_, _, rfl⟩
  case scratchpad => exact ⟨_, _, rfl⟩
  case ioStub => exact ⟨_, _, rfl⟩
  case dma => cases h
  case gpu => cases h
  case bios => exact ⟨_, _, rfl⟩
  case unmapped => exact ⟨_, _, rfl⟩

/-! ### The load sequence (R800) -/

/-- The delayed load issued after a read leaves the state before the read as Loaded says (R225, R408). -/
theorem State.loaded_delayLoad {s u : State} {addr x : Word} {width : Width} (h : s.busRead addr width = .ok (x, u))
    (rt : RegIdx) (v : Word) : Loaded s rt v (u.delayLoad rt v) := by
  rw [State.busRead_spec h]
  exact ⟨rfl, fun _ => rfl, rfl, fun _ => rfl⟩

/-- An aligned load that the bus answers issues what `f` makes of the value read. -/
theorem State.load_of_read {s u : State} {addr x : Word} {width : Width} (haligned : width.aligned addr = true)
    (h : s.busRead addr width = .ok (x, u)) (rt : RegIdx) (f : Word → Word) :
    ∃ t, s.load rt addr width f = .next t ∧ Loaded s rt (f x) t := by
  refine ⟨u.delayLoad rt (f x), ?_, State.loaded_delayLoad h rt (f x)⟩
  rw [State.load, if_pos haligned, h]

/-- An aligned load that the bus refuses is refused. -/
theorem State.load_of_refusal {s : State} {addr : Word} {width : Width} {r : Refusal}
    (haligned : width.aligned addr = true) (h : s.busRead addr width = .error r) (rt : RegIdx) (f : Word → Word) :
    s.load rt addr width f = .refused r := by
  rw [State.load, if_pos haligned, h]

/-! ### LB and LBU -/

/-- Sign-extending the low byte of a zero-extended byte sign-extends the byte (R802). -/
theorem sextLow8_setWidth (b : Byte) : sextLow8 (b.setWidth 32) = b.signExtend 32 := by
  have hlow : (b.setWidth 32).extractLsb' 0 8 = b := by
    rw [← BitVec.setWidth_eq_extractLsb' (by decide), BitVec.setWidth_setWidth_of_le b (by decide), BitVec.setWidth_eq]
  rw [sextLow8, hlow]

theorem exec_lb (rt rs : RegIdx) (imm : BitVec 16) (s : State) :
    exec (.lb rt rs imm) s = s.load rt (s.reg rs + imm.signExtend 32) .byte sextLow8 := rfl

theorem exec_lbu (rt rs : RegIdx) (imm : BitVec 16) (s : State) :
    exec (.lbu rt rs imm) s = s.load rt (s.reg rs + imm.signExtend 32) .byte id := rfl

/-- LB and LBU are refused where the bus refuses the byte: no address is misaligned for a byte. -/
theorem loadByte_of_refusal {s : State} {rs : RegIdx} {imm : BitVec 16} {r : Refusal}
    (h : s.busRead (s.reg rs + imm.signExtend 32) .byte = .error r) (rt : RegIdx) :
    exec (.lb rt rs imm) s = .refused r ∧ exec (.lbu rt rs imm) s = .refused r := by
  rw [exec_lb, exec_lbu]
  exact ⟨State.load_of_refusal rfl h rt sextLow8, State.load_of_refusal rfl h rt id⟩

end Sys2Proof.Machine

namespace Sys2Proof.Proofs

open Sys2Proof.Machine

/-- Settles O41, by what the bus answers a byte read in and outside the two windows. -/
theorem loadByte : Obligations.LoadByte := by
  unfold Obligations.LoadByte
  intro s rt rs imm
  refine ⟨fun hdma => loadByte_of_refusal (State.busRead_narrow_of_dma hdma (by decide) s) rt,
    fun hgpu => loadByte_of_refusal (State.busRead_narrow_of_gpu hgpu (by decide) s) rt, fun hwindow => ?_⟩
  obtain ⟨b, u, hread⟩ := State.busRead_byte_answers hwindow s
  refine ⟨b, u, hread, ?_, ?_⟩
  · rw [exec_lb, ← sextLow8_setWidth]
    exact State.load_of_read rfl hread rt sextLow8
  · rw [exec_lbu]
    exact State.load_of_read rfl hread rt id

end Sys2Proof.Proofs
end

section
/-!
PROOFS of the family 45_store.md: SB, SH and SW (R902, R910 to R912). First which bytes a bus store writes and what they
hold after it; then where the bus answers a store; then what the store sequence makes of both, for every store; then the
statement.
-/

namespace Sys2Proof.Machine

open Sys2Proof.Claims

/-! ### The bytes of a bus store (R222, R902) -/

/-- A stored byte is a byte of RAM or scratchpad, and the gate let the store pass. -/
theorem State.getElem?_storedBytes {s : State} {addr : Word} {width : Width} {k a : Nat}
    (h : (s.storedBytes addr width)[k]? = some a) :
    ∃ d, deviceOf (regionOf (maskAddress addr)) = some d ∧ d ≠ bios ∧ 4 ≤ d.size ∧ s.isolates addr = false ∧
      k < width.bytes ∧ d.cell (maskAddress addr).toNat k = a := by
  have hcell : ∀ {d : ByteDevice}, ((List.range width.bytes).map (d.cell (maskAddress addr).toNat))[k]? = some a →
      k < width.bytes ∧ d.cell (maskAddress addr).toNat k = a := fun hk => by
    obtain ⟨hlt, rfl⟩ := List.getElem?_eq_some_iff.mp hk
    rw [List.length_map, List.length_range] at hlt
    rw [List.getElem_map, List.getElem_range]
    exact ⟨hlt, rfl⟩
  unfold State.storedBytes at h
  split at h
  · cases h
  · next hgate =>
    split at h <;> rename_i hregion <;> rw [hregion]
    · exact ⟨ram, rfl, by decide, by decide, eq_false_of_ne_true hgate, hcell h⟩
    · exact ⟨scratchpad, rfl, by decide, by decide, eq_false_of_ne_true hgate, hcell h⟩
    all_goals cases h

/-- Byte `k` of the value stands at the `k`-th stored address. -/
theorem State.busWrite_readByte_stored {s t : State} {addr v : Word} {width : Width} {k a : Nat}
    (h : s.busWrite addr width v = .ok t) (hk : (s.storedBytes addr width)[k]? = some a) :
    t.readByte a = byteOfWord v k := by
  obtain ⟨d, hdevice, hbios, hsize, hgate, hlt, rfl⟩ := State.getElem?_storedBytes hk
  rw [State.busWrite_of_device hdevice hbios hgate] at h
  cases h
  exact readDeviceByte_writeDevice hsize s.mem (maskAddress addr) v hlt

theorem State.stored_of_busWrite {s t : State} {addr v : Word} {width : Width} (h : s.busWrite addr width v = .ok t) :
    Stored s addr width v t := by
  obtain ⟨heq, -, -, hother⟩ := State.busWrite_spec h
  exact ⟨h, fun _ _ => State.busWrite_readByte_stored h, hother, heq⟩

/-! ### Where the bus answers a store (R222, R223, R233, R237) -/

/-- A store of any width is answered outside the windows of word registers, and where the gate takes it. -/
theorem State.busWrite_answers {s : State} {addr : Word} (h : inWordWindow addr = false ∨ s.isolates addr = true)
    (width : Width) (v : Word) : ∃ t, s.busWrite addr width v = .ok t := by
  unfold State.busWrite
  split
  · exact ⟨_, rfl⟩
  · next hgate =>
    have hwindow := h.resolve_right hgate
    unfold inWordWindow at hwindow
    dsimp only
    cases hregion : regionOf (maskAddress addr) <;> rw [hregion] at hwindow
    case ram => exact ⟨_, rfl⟩
    case scratchpad => exact ⟨_, rfl⟩
    case ioStub => exact ⟨_, rfl⟩
    case dma => cases hwindow
    case gpu => cases hwindow
    case bios => exact ⟨_, rfl⟩
    case unmapped => exact ⟨_, rfl⟩

/-! ### The store sequence (R900, R901) -/

/-- An aligned store that the bus answers completes with that bus store. -/
theorem State.store_of_busWrite {s : State} {addr v : Word} {width : Width} (haligned : width.aligned addr = true)
    (h : ∃ t, s.busWrite addr width v = .ok t) : ∃ t, s.store addr width v = .next t ∧ Stored s addr width v t := by
  obtain ⟨t, hwrite⟩ := h
  refine ⟨t, ?_, State.stored_of_busWrite hwrite⟩
  rw [State.store, if_pos haligned, hwrite]

/-- A misaligned store raises AdES, whatever the bus would answer. -/
theorem State.store_of_misaligned {s : State} {addr : Word} {width : Width} (h : width.aligned addr = false) (v : Word) :
    ∃ t, s.store addr width v = .next t ∧ Raised s (.ades addr) t := by
  refine ⟨_, ?_, s.raised_enterException (.ades addr)⟩
  rw [State.store, if_neg (ne_true_of_eq_false h)]

theorem exec_sb (rt rs : RegIdx) (imm : BitVec 16) (s : State) :
    exec (.sb rt rs imm) s = s.store (s.reg rs + imm.signExtend 32) .byte (s.reg rt) := rfl

theorem exec_sh (rt rs : RegIdx) (imm : BitVec 16) (s : State) :
    exec (.sh rt rs imm) s = s.store (s.reg rs + imm.signExtend 32) .half (s.reg rt) := rfl

theorem exec_sw (rt rs : RegIdx) (imm : BitVec 16) (s : State) :
    exec (.sw rt rs imm) s = s.store (s.reg rs + imm.signExtend 32) .word (s.reg rt) := rfl

end Sys2Proof.Machine

namespace Sys2Proof.Proofs

open Sys2Proof.Machine

/-- Settles O45: each is one store sequence, which the alignment of `ea` sends to the bus or to AdES. -/
theorem stores : Obligations.Stores := by
  unfold Obligations.Stores
  intro s rt rs imm
  rw [exec_sb, exec_sh, exec_sw]
  refine ⟨fun hanswered => ?_, fun heven hanswered => ?_, fun haligned => ?_, fun hodd => ?_, fun hmisaligned => ?_⟩
  · exact State.store_of_busWrite rfl (State.busWrite_answers hanswered .byte _)
  · exact State.store_of_busWrite (beq_iff_eq.mpr heven) (State.busWrite_answers hanswered .half _)
  · exact State.store_of_busWrite (beq_iff_eq.mpr haligned) (State.busWrite_word_answers s _ _)
  · exact State.store_of_misaligned (width := .half) (beq_false_of_ne hodd) _
  · exact State.store_of_misaligned (width := .word) (beq_false_of_ne hmisaligned) _

end Sys2Proof.Proofs
end

section
/-!
PROOFS of the family 46_branch.md: the conditional branches (R1010, R1011, R1014, R1015) and the jumps (R1018 to R1020).
First that branchIf is the branch the statements speak of, alone and after a link; then the state that each instruction
answers; then the two statements.
-/

namespace Sys2Proof.Machine

open Sys2Proof.Claims

/-! ### A branch recorded on a condition, alone and after a link (R1000, R1002) -/

/-- A branch not taken leaves the state, a pending branch included; a branch taken sets its two fields. -/
theorem State.branched_branchIf (s : State) (taken : Bool) (target : Word) :
    Branched s taken target (s.branchIf taken target) := by
  cases taken with
  | false => exact ⟨rfl, rfl, rfl, fun _ => rfl⟩
  | true => exact ⟨rfl, rfl, rfl, fun _ => rfl⟩

theorem State.linked_branchIf (s : State) (d : RegIdx) (taken : Bool) (target : Word) :
    Linked s d taken target ((s.writeReg d (linkAddress s.pc)).branchIf taken target) :=
  ⟨_, s.directWrite_writeReg d (linkAddress s.pc), State.branched_branchIf _ taken target⟩

/-! ### Answers of the instructions -/

/-- An instruction that answers a branch's state completes with that branch. -/
theorem completes_of_branchIf {r : Result} {s : State} {taken : Bool} {target : Word}
    (h : r = .next (s.branchIf taken target)) : ∃ t, r = .next t ∧ Branched s taken target t :=
  ⟨_, h, s.branched_branchIf taken target⟩

/-- An instruction that answers a linking branch's state completes with that link and branch. -/
theorem completes_of_link_branchIf {r : Result} {s : State} {d : RegIdx} {taken : Bool} {target : Word}
    (h : r = .next ((s.writeReg d (linkAddress s.pc)).branchIf taken target)) :
    ∃ t, r = .next t ∧ Linked s d taken target t :=
  ⟨_, h, s.linked_branchIf d taken target⟩

theorem exec_beq (rs rt : RegIdx) (imm : BitVec 16) (s : State) :
    exec (.beq rs rt imm) s = .next (s.branchIf (decide (s.reg rs = s.reg rt)) (branchTarget s.pc imm)) := by
  rw [exec, execBeq, beq_eq_decide]

theorem exec_bne (rs rt : RegIdx) (imm : BitVec 16) (s : State) :
    exec (.bne rs rt imm) s = .next (s.branchIf (decide (s.reg rs ≠ s.reg rt)) (branchTarget s.pc imm)) := by
  rw [exec, execBne, bne, beq_eq_decide, decide_not]

theorem exec_bltz (rs : RegIdx) (imm : BitVec 16) (s : State) :
    exec (.bltz rs imm) s = .next (s.branchIf (decide ((s.reg rs).toInt < 0)) (branchTarget s.pc imm)) := rfl

theorem exec_bgez (rs : RegIdx) (imm : BitVec 16) (s : State) :
    exec (.bgez rs imm) s = .next (s.branchIf (decide (0 ≤ (s.reg rs).toInt)) (branchTarget s.pc imm)) := rfl

theorem exec_j (target : BitVec 26) (s : State) :
    exec (.j target) s = .next (s.branchIf true (jumpTarget s.pc target)) := rfl

/-- JAL records before it links: the two touch different fields, so the order does not show. -/
theorem exec_jal (target : BitVec 26) (s : State) :
    exec (.jal target) s =
      .next ((s.writeReg linkReg (linkAddress s.pc)).branchIf true (jumpTarget s.pc target)) := by
  rw [exec, execJal, State.recordBranch_writeReg]

theorem exec_jr (rs : RegIdx) (s : State) : exec (.jr rs) s = .next (s.branchIf true (s.reg rs)) := rfl

end Sys2Proof.Machine

namespace Sys2Proof.Proofs

open Sys2Proof.Machine

/-- Settles O47: each of the four is one branchIf, on its condition and to its PC-relative target. -/
theorem conditionalBranches : Obligations.ConditionalBranches := by
  unfold Obligations.ConditionalBranches
  intro s rs rt imm
  exact ⟨completes_of_branchIf (exec_beq rs rt imm s), completes_of_branchIf (exec_bne rs rt imm s),
    completes_of_branchIf (exec_bltz rs imm s), completes_of_branchIf (exec_bgez rs imm s)⟩

/-- Settles O48: a jump is a branch that is always taken, for JAL after the link in `x[31]`. -/
theorem jumps : Obligations.Jumps := by
  unfold Obligations.Jumps
  intro s rs target
  exact ⟨completes_of_branchIf (exec_j target s), completes_of_link_branchIf (exec_jal target s),
    completes_of_branchIf (exec_jr rs s)⟩

end Sys2Proof.Proofs
end

section
/-!
PROOFS of the family 60_exceptions.md: the launch with an executable, where a short file is a fatal startup error (R1221,
R1306). First the payload's size by the launch's unit, the host's action and the runs of a launch that starts; then the
statement.
-/

namespace Sys2Proof.Machine

/-! ### The executable of a launch (R1306) -/

/-- The payload's byte count by the launch's unit: words or bytes. -/
theorem payloadBytes_eq_ite (unit : SizeUnit) (size : Word) :
    payloadBytes unit size = if unit = .words then (size * 4#32).toNat else size.toNat := by
  cases unit with
  | words => rfl
  | bytes => rfl

/-- A file does not fit exactly where it ends before its payload does. -/
theorem exeFits_eq_false_iff {unit : SizeUnit} {file : List Byte} :
    exeFits unit file = false ↔ file.length < payloadOffset + payloadBytes unit (le32 file 0x1C) := by
  rw [← Bool.not_eq_true, exeFits_iff, Nat.not_le]

/-- A launch with a full image and an executable that fits starts at reset (R1302). -/
theorem Launch.start_of_exeFits {p : Launch} {file : List Byte} (hexe : p.exeImage = some file)
    (hbios : p.biosImage.length = bios.size) (hfits : exeFits p.sizeUnit file = true) :
    p.start = some (State.resetWithBios p.biosImage) := by
  refine Launch.start_eq_some.mpr ⟨hbios, fun file' hfile' => ?_, rfl⟩
  obtain rfl : file = file' := Option.some.inj (hexe.symm.trans hfile')
  exact hfits

/-- A launch with an executable side-loads it before tick EXE_AT and leaves the state alone before every other. -/
theorem Launch.beforeTick_of_exe {p : Launch} {file : List Byte} (hexe : p.exeImage = some file) (k : Nat) (s : State) :
    p.beforeTick k s = if k = p.exeAt then s.sideLoad p.sizeUnit file else some s := by
  unfold Launch.beforeTick
  rw [hexe]

/-- A launch that has a start state has a run of every number of ticks, to a state or to a stop. -/
theorem Launch.exists_run_of_start {p : Launch} {s : State} (h : p.start = some s) (n : Nat) :
    ∃ r, p.run n = some r := by
  unfold Launch.run
  rw [h]
  exact Option.isSome_iff_exists.mp (Launch.runFrom_isSome h n 0 s)

end Sys2Proof.Machine

namespace Sys2Proof.Proofs

open Sys2Proof.Machine

/-- Settles O60: whether the file fits decides whether there is a start state, and the start state whether there are runs. -/
theorem launchWithAnExecutable : Obligations.LaunchWithAnExecutable := by
  unfold Obligations.LaunchWithAnExecutable
  intro p file n hexe hn
  obtain rfl : n = payloadBytes p.sizeUnit (le32 file 0x1C) := hn.trans (payloadBytes_eq_ite _ _).symm
  refine ⟨fun hshort => ?_, fun hfits hbios => ?_⟩
  · have hstart : p.start = none := Launch.start_none_of_short hexe (exeFits_eq_false_iff.mpr hshort)
    exact ⟨hstart, Launch.run_of_start_none hstart, Launch.observe_of_start_none hstart⟩
  · have hstart : p.start = some (State.resetWithBios p.biosImage) :=
      Launch.start_of_exeFits hexe hbios (exeFits_iff.mpr hfits)
    exact ⟨hstart, Launch.exists_run_of_start hstart, Launch.beforeTick_of_exe hexe⟩

end Sys2Proof.Proofs
end

section
/-!
PROOFS about the encoding (30_encoding.md R300 to R342): decode undoes encode, encode undoes decode but for the ignored
bits, and both follow the rows of the opcode table. First decoding by format; then a word as its fields, each kept or
dropped by a mask; then the rows; then the three statements.
-/

namespace Sys2Proof

open Sys2Proof.Claims

/-! ### Decoding by format (R320) -/

theorem decode_of_special {w : Word} (h : opOf w = 0x00#6) : decode w = decodeSpecial w := by rw [decode, h]; rfl

theorem decode_of_regimm {w : Word} (h : opOf w = 0x01#6) : decode w = decodeRegimm w := by rw [decode, h]; rfl

theorem decode_of_cop0 {w : Word} (h : opOf w = 0x10#6) : decode w = decodeCop0 w := by rw [decode, h]; rfl

/-- A shift amount that fits its field is read back. -/
theorem saOf_encodeSpecial (rs rt rd : RegIdx) {sa : Nat} (hsa : sa < 32) (funct : BitVec 6) :
    saOf (encodeSpecial rs rt rd sa funct) = sa := by
  rw [saOf, saBits_encodeSpecial, BitVec.toNat_ofNat, Nat.mod_eq_of_lt hsa]

/-- The selector of a COP0 move tells it from a COP0 operation (R323). -/
theorem getLsbD_encodeCop0Move (sel : BitVec 5) (rt cr : RegIdx) :
    (encodeCop0Move sel rt cr).getLsbD 25 = sel.getLsbD 4 := by rw [bit25_eq, rsBits_encodeCop0Move]

/-- Each format gives its operands back field by field; only a shift amount can be too large for its field. -/
theorem decode_encode {i : Instr} (h : WellFormed i = true) : decode (encode i) = .ok i := by
  cases i with
  | sll rd rt sa | srl rd rt sa | sra rd rt sa =>
    have hsa : sa < 32 := of_decide_eq_true h
    simp [encode, decode, decodeSpecial, rtOf, rdOf, saOf_encodeSpecial, hsa]
  | bltz | bgez | bltzal | bgezal => simp [encode, decode, decodeRegimm, rsOf]
  | mfc0 rt cr | mtc0 rt cr =>
    simp only [encode, decode_of_cop0, decodeCop0, opOf_encodeCop0Move, getLsbD_encodeCop0Move]
    simp [rtOf, rdOf]
  | rfe => decide
  | _ => simp [encode, decode, decodeSpecial, rsOf, rtOf, rdOf]

/-! ### A word by its fields (R301, R302) -/

theorem append_fields_special (w : Word) :
    opOf w ++ rsBits w ++ rtBits w ++ rdBits w ++ saBits w ++ functOf w = w := by
  apply BitVec.eq_of_toNat_eq
  simp only [opOf, rsBits, rtBits, rdBits, saBits, functOf, toNat_append, BitVec.extractLsb'_toNat,
    Nat.shiftRight_eq_div_pow]
  have := w.isLt
  omega

theorem append_fields_imm (w : Word) : opOf w ++ rsBits w ++ rtBits w ++ immOf w = w := by
  apply BitVec.eq_of_toNat_eq
  simp only [opOf, rsBits, rtBits, immOf, toNat_append, BitVec.extractLsb'_toNat, Nat.shiftRight_eq_div_pow]
  have := w.isLt
  omega

theorem append_fields_jump (w : Word) : opOf w ++ targetOf w = w := by
  apply BitVec.eq_of_toNat_eq
  simp only [opOf, targetOf, toNat_append, BitVec.extractLsb'_toNat, Nat.shiftRight_eq_div_pow]
  have := w.isLt
  omega

theorem append_fields_code (w : Word) : opOf w ++ codeOf w ++ functOf w = w := by
  apply BitVec.eq_of_toNat_eq
  simp only [opOf, codeOf, functOf, toNat_append, BitVec.extractLsb'_toNat, Nat.shiftRight_eq_div_pow]
  have := w.isLt
  omega

theorem opOf_and (w m : Word) : opOf (w &&& m) = opOf w &&& opOf m := BitVec.extractLsb'_and
theorem rsBits_and (w m : Word) : rsBits (w &&& m) = rsBits w &&& rsBits m := BitVec.extractLsb'_and
theorem rtBits_and (w m : Word) : rtBits (w &&& m) = rtBits w &&& rtBits m := BitVec.extractLsb'_and
theorem rdBits_and (w m : Word) : rdBits (w &&& m) = rdBits w &&& rdBits m := BitVec.extractLsb'_and
theorem saBits_and (w m : Word) : saBits (w &&& m) = saBits w &&& saBits m := BitVec.extractLsb'_and
theorem functOf_and (w m : Word) : functOf (w &&& m) = functOf w &&& functOf m := BitVec.extractLsb'_and
theorem immOf_and (w m : Word) : immOf (w &&& m) = immOf w &&& immOf m := BitVec.extractLsb'_and

theorem ofNat_saOf (w : Word) : BitVec.ofNat 5 (saOf w) = saBits w := by rw [saOf, BitVec.ofNat_toNat, BitVec.setWidth_eq]

/-- A field whose mask is all ones is kept. -/
theorem field_kept {n : Nat} (x : BitVec n) : x = x &&& BitVec.allOnes n := BitVec.and_allOnes.symm

/-- A field whose mask is zero is dropped. -/
theorem field_dropped {n : Nat} (x : BitVec n) : 0#n = x &&& 0#n := BitVec.and_zero.symm

/-! ### Encoding the fields of a masked word -/

/-- A word of six fields, each of them that of `w` under `m`, is `w &&& m`. -/
theorem append_eq_and {w m : Word} {op funct : BitVec 6} {rs rt rd sa : BitVec 5} (hop : op = opOf w &&& opOf m)
    (hrs : rs = rsBits w &&& rsBits m) (hrt : rt = rtBits w &&& rtBits m) (hrd : rd = rdBits w &&& rdBits m)
    (hsa : sa = saBits w &&& saBits m) (hfunct : funct = functOf w &&& functOf m) :
    op ++ rs ++ rt ++ rd ++ sa ++ funct = w &&& m := by
  rw [hop, hrs, hrt, hrd, hsa, hfunct, ← opOf_and, ← rsBits_and, ← rtBits_and, ← rdBits_and, ← saBits_and, ← functOf_and,
    append_fields_special]

/-- An I-type word whose fields are those of `w` under `m` is `w &&& m`. -/
theorem encodeImm_eq_and {w m : Word} {op : BitVec 6} {rs rt : RegIdx} {imm : BitVec 16}
    (hop : op = opOf w &&& opOf m) (hrs : bitsOfReg rs = rsBits w &&& rsBits m)
    (hrt : bitsOfReg rt = rtBits w &&& rtBits m) (himm : imm = immOf w &&& immOf m) :
    encodeImm op rs rt imm = w &&& m := by
  rw [encodeImm, hop, hrs, hrt, himm, ← opOf_and, ← rsBits_and, ← rtBits_and, ← immOf_and, append_fields_imm]

/-- No bit of a REGIMM word is ignored. -/
theorem encodeRegimm_eq_and {w : Word} {sel : BitVec 5} (hop : opOf w = 0x01#6) (hsel : rtBits w = sel) :
    encodeRegimm (rsOf w) sel (immOf w) = w &&& BitVec.allOnes 32 := by
  rw [← hsel, BitVec.and_allOnes, encodeRegimm, ← hop]
  exact append_fields_imm w

/-- No bit of a J-type word is ignored. -/
theorem encodeJump_eq_and {w : Word} {op : BitVec 6} (hop : opOf w = op) :
    encodeJump op (targetOf w) = w &&& BitVec.allOnes 32 := by
  rw [← hop, BitVec.and_allOnes]
  exact append_fields_jump w

/-- No bit of a SYSCALL or BREAK word is ignored: the code is an operand. -/
theorem encodeCode_eq_and {w : Word} {funct : BitVec 6} (hop : opOf w = 0x00#6) (hfunct : functOf w = funct) :
    encodeCode (codeOf w) funct = w &&& BitVec.allOnes 32 := by
  rw [← hfunct, BitVec.and_allOnes, encodeCode, ← hop]
  exact append_fields_code w

/-- A COP0 move ignores the bits below its COP0 register number. -/
theorem encodeCop0Move_eq_and {w : Word} {sel : BitVec 5} (hop : opOf w = 0x10#6) (hsel : rsBits w = sel) :
    encodeCop0Move sel (rtOf w) (rdOf w) = w &&& 0xFFFFF800#32 := by
  have hlow : encodeCop0Move sel (rtOf w) (rdOf w) = 0x10#6 ++ sel ++ rtBits w ++ rdBits w ++ 0#5 ++ 0#6 :=
    (BitVec.append_assoc' (x₂ := 0#5) (x₃ := 0#6)).trans rfl
  rw [hlow]
  exact append_eq_and (hop ▸ field_kept _) (hsel ▸ field_kept _) (field_kept _) (field_kept _) (field_dropped _)
    (field_dropped _)

/-- RFE ignores the bits between bit 25, which tells it from a move, and its function number. -/
theorem encode_rfe_eq_and {w : Word} (hop : opOf w = 0x10#6) (hbit : w.getLsbD 25 = true)
    (hfunct : functOf w = 0x10#6) : encode .rfe = w &&& 0xFE00003F#32 := by
  have htop : ∀ b : BitVec 5, b.getLsbD 4 = true → 0x10#5 = b &&& 0x10#5 := by decide
  have hrs : 0x10#5 = rsBits w &&& 0x10#5 := htop _ ((bit25_eq w).symm.trans hbit)
  have hword : encode .rfe = 0x10#6 ++ 0x10#5 ++ 0#5 ++ 0#5 ++ 0#5 ++ 0x10#6 := rfl
  rw [hword]
  exact append_eq_and (hop ▸ field_kept _) hrs (field_dropped _) (field_dropped _) (field_dropped _)
    (hfunct ▸ field_kept _)

/-! ### What a word decodes to -/

theorem decodeSpecial_ok {w : Word} {i : Instr} (hop : opOf w = 0x00#6) (h : decodeSpecial w = .ok i) :
    WellFormed i = true ∧ encode i = w &&& usedBits i := by
  have hop' : 0x00#6 = opOf w &&& BitVec.allOnes 6 := hop ▸ field_kept _
  have hsa : WellFormed (.sll 0 0 (saOf w)) = true := decide_eq_true (saBits w).isLt
  unfold decodeSpecial at h
  split at h
  case h_1 hf | h_2 hf | h_3 hf =>
    cases h
    exact ⟨hsa, append_eq_and (m := 0xFC1FFFFF#32) hop' (field_dropped _) (field_kept _) (field_kept _)
      ((ofNat_saOf w).trans (field_kept _)) (hf ▸ field_kept _)⟩
  case h_7 hf | h_12 hf | h_14 hf =>
    cases h
    exact ⟨rfl, append_eq_and (m := 0xFFE0003F#32) hop' (field_kept _) (field_dropped _) (field_dropped _) (field_dropped _)
      (hf ▸ field_kept _)⟩
  case h_8 hf =>
    cases h
    exact ⟨rfl, append_eq_and (m := 0xFFE0F83F#32) hop' (field_kept _) (field_dropped _) (field_kept _) (field_dropped _)
      (hf ▸ field_kept _)⟩
  case h_9 hf | h_10 hf => cases h; exact ⟨rfl, encodeCode_eq_and hop hf⟩
  case h_11 hf | h_13 hf =>
    cases h
    exact ⟨rfl, append_eq_and (m := 0xFC00F83F#32) hop' (field_dropped _) (field_dropped _) (field_kept _) (field_dropped _)
      (hf ▸ field_kept _)⟩
  case h_15 hf | h_16 hf | h_17 hf | h_18 hf =>
    cases h
    exact ⟨rfl, append_eq_and (m := 0xFFFF003F#32) hop' (field_kept _) (field_kept _) (field_dropped _) (field_dropped _)
      (hf ▸ field_kept _)⟩
  case h_29 => cases h
  all_goals
    rename_i hf
    cases h
    exact ⟨rfl, append_eq_and (m := 0xFFFFF83F#32) hop' (field_kept _) (field_kept _) (field_kept _) (field_dropped _)
      (hf ▸ field_kept _)⟩

theorem decodeRegimm_ok {w : Word} {i : Instr} (hop : opOf w = 0x01#6) (h : decodeRegimm w = .ok i) :
    WellFormed i = true ∧ encode i = w &&& usedBits i := by
  unfold decodeRegimm at h
  split at h
  case h_5 => cases h
  all_goals
    rename_i hsel
    cases h
    exact ⟨rfl, encodeRegimm_eq_and hop hsel⟩

theorem decodeCop0_ok {w : Word} {i : Instr} (hop : opOf w = 0x10#6) (h : decodeCop0 w = .ok i) :
    WellFormed i = true ∧ encode i = w &&& usedBits i := by
  unfold decodeCop0 at h
  split at h
  · next hbit =>
    split at h
    · next hf => cases h; exact ⟨rfl, encode_rfe_eq_and hop hbit hf⟩
    · cases h
  · split at h
    · next hsel => cases h; exact ⟨rfl, encodeCop0Move_eq_and hop hsel⟩
    · next hsel => cases h; exact ⟨rfl, encodeCop0Move_eq_and hop hsel⟩
    · cases h

/-- What a word decodes to is well-formed, and encodes to the word with the ignored bits cleared. -/
theorem decode_ok {w : Word} {i : Instr} (h : decode w = .ok i) :
    WellFormed i = true ∧ encode i = w &&& usedBits i := by
  unfold decode at h
  split at h
  case h_1 hop => exact decodeSpecial_ok hop h
  case h_2 hop => exact decodeRegimm_ok hop h
  case h_3 hop | h_4 hop => cases h; exact ⟨rfl, encodeJump_eq_and hop⟩
  case h_7 hop | h_8 hop =>
    cases h
    exact ⟨rfl, encodeImm_eq_and (m := 0xFFE0FFFF#32) (hop ▸ field_kept _) (field_kept _) (field_dropped _) (field_kept _)⟩
  case h_16 hop =>
    cases h
    exact ⟨rfl, encodeImm_eq_and (m := 0xFC1FFFFF#32) (hop ▸ field_kept _) (field_dropped _) (field_kept _) (field_kept _)⟩
  case h_17 hop => exact decodeCop0_ok hop h
  case h_30 => cases h
  all_goals
    rename_i hop
    cases h
    exact ⟨rfl, encodeImm_eq_and (m := 0xFFFFFFFF#32) (hop ▸ field_kept _) (field_kept _) (field_kept _) (field_kept _)⟩

/-! ### The rows of the opcode table -/

/-- The word of an instruction lies in the instruction's row. -/
theorem tableRow_matches_encode (i : Instr) : (tableRow i).matches (encode i) = true :=
  i.casesOn Laws.TableWord.add Laws.TableWord.addu Laws.TableWord.sub Laws.TableWord.subu Laws.TableWord.slt
    Laws.TableWord.sltu Laws.TableWord.addi Laws.TableWord.addiu Laws.TableWord.slti Laws.TableWord.sltiu
    Laws.TableWord.mult Laws.TableWord.multu Laws.TableWord.div Laws.TableWord.divu Laws.TableWord.mfhi
    Laws.TableWord.mflo Laws.TableWord.mthi Laws.TableWord.mtlo Laws.TableWord.and Laws.TableWord.or Laws.TableWord.xor
    Laws.TableWord.nor Laws.TableWord.andi Laws.TableWord.ori Laws.TableWord.xori Laws.TableWord.lui Laws.TableWord.sll
    Laws.TableWord.srl Laws.TableWord.sra Laws.TableWord.sllv Laws.TableWord.srlv Laws.TableWord.srav Laws.TableWord.lb
    Laws.TableWord.lbu Laws.TableWord.lh Laws.TableWord.lhu Laws.TableWord.lw Laws.TableWord.lwl Laws.TableWord.lwr
    Laws.TableWord.sb Laws.TableWord.sh Laws.TableWord.sw Laws.TableWord.swl Laws.TableWord.swr Laws.TableWord.beq
    Laws.TableWord.bne Laws.TableWord.blez Laws.TableWord.bgtz Laws.TableWord.bltz Laws.TableWord.bgez
    Laws.TableWord.bltzal Laws.TableWord.bgezal Laws.TableWord.j Laws.TableWord.jal Laws.TableWord.jr
    Laws.TableWord.jalr Laws.TableWord.syscall Laws.TableWord.brk Laws.TableWord.mfc0 Laws.TableWord.mtc0
    Laws.TableWord.rfe

/-- A row looks at no bit that its instruction ignores. -/
theorem usedBits_and_mask (i : Instr) : usedBits i &&& (tableRow i).mask = (tableRow i).mask := by
  cases i <;> simp only [usedBits, tableRow] <;> rfl

/-- What a word decodes to is of a row that the word lies in: the row sees only bits that encoding keeps. -/
theorem tableRow_matches_of_decode {w : Word} {i : Instr} (h : decode w = .ok i) : (tableRow i).matches w = true := by
  have hrow : encode i &&& (tableRow i).mask = (tableRow i).pattern := beq_iff_eq.mp (tableRow_matches_encode i)
  rw [(decode_ok h).2, BitVec.and_assoc, usedBits_and_mask] at hrow
  exact beq_iff_eq.mpr hrow

theorem fields_of_special_row {w p : Word} (h : (TableRow.mk 0xFC00003F#32 p).matches w = true) :
    opOf w = opOf p ∧ functOf w = functOf p := by
  obtain rfl : w &&& 0xFC00003F#32 = p := beq_iff_eq.mp h
  exact ⟨(field_kept _).trans (opOf_and w 0xFC00003F#32).symm, (field_kept _).trans (functOf_and w 0xFC00003F#32).symm⟩

theorem op_of_row {w p : Word} (h : (TableRow.mk 0xFC000000#32 p).matches w = true) : opOf w = opOf p := by
  obtain rfl : w &&& 0xFC000000#32 = p := beq_iff_eq.mp h
  exact (field_kept _).trans (opOf_and w 0xFC000000#32).symm

theorem fields_of_regimm_row {w p : Word} (h : (TableRow.mk 0xFC1F0000#32 p).matches w = true) :
    opOf w = opOf p ∧ rtBits w = rtBits p := by
  obtain rfl : w &&& 0xFC1F0000#32 = p := beq_iff_eq.mp h
  exact ⟨(field_kept _).trans (opOf_and w 0xFC1F0000#32).symm, (field_kept _).trans (rtBits_and w 0xFC1F0000#32).symm⟩

theorem fields_of_cop0Move_row {w p : Word} (h : (TableRow.mk 0xFFE00000#32 p).matches w = true) :
    opOf w = opOf p ∧ rsBits w = rsBits p := by
  obtain rfl : w &&& 0xFFE00000#32 = p := beq_iff_eq.mp h
  exact ⟨(field_kept _).trans (opOf_and w 0xFFE00000#32).symm, (field_kept _).trans (rsBits_and w 0xFFE00000#32).symm⟩

theorem fields_of_rfe_row {w : Word} (h : (tableRow .rfe).matches w = true) :
    opOf w = 0x10#6 ∧ w.getLsbD 25 = true ∧ functOf w = 0x10#6 := by
  have hp : w &&& 0xFE00003F#32 = 0x42000010#32 := beq_iff_eq.mp h
  have hbit : (w &&& 0xFE00003F#32).getLsbD 25 = true := by rw [hp]; rfl
  rw [BitVec.getLsbD_and] at hbit
  exact ⟨((field_kept _).trans (opOf_and w 0xFE00003F#32).symm).trans (congrArg opOf hp), (Bool.and_eq_true_iff.mp hbit).1,
    ((field_kept _).trans (functOf_and w 0xFE00003F#32).symm).trans (congrArg functOf hp)⟩

/-- A word of a row decodes, to an instruction of that row. -/
theorem decode_of_tableRow {w : Word} {j : Instr} (h : (tableRow j).matches w = true) :
    ∃ i, decode w = .ok i ∧ tableRow i = tableRow j := by
  cases j with
  | rfe =>
    obtain ⟨hop, hbit, hfunct⟩ := fields_of_rfe_row h
    refine ⟨.rfe, ?_, rfl⟩
    rw [decode_of_cop0 hop, decodeCop0, if_pos hbit, hfunct]; rfl
  | mfc0 | mtc0 =>
    obtain ⟨hop, hsel⟩ := fields_of_cop0Move_row h
    rw [decode_of_cop0 hop, decodeCop0, bit25_eq, hsel]
    exact ⟨_, rfl, rfl⟩
  | bltz | bgez | bltzal | bgezal =>
    obtain ⟨hop, hsel⟩ := fields_of_regimm_row h
    rw [decode_of_regimm hop, decodeRegimm, hsel]
    exact ⟨_, rfl, rfl⟩
  | addi | addiu | slti | sltiu | andi | ori | xori | lui | lb | lbu | lh | lhu | lw | lwl | lwr | sb | sh | sw | swl | swr
  | beq | bne | blez | bgtz | j | jal =>
    have hop := op_of_row h
    rw [decode, hop]
    exact ⟨_, rfl, rfl⟩
  | _ =>
    obtain ⟨hop, hfunct⟩ := fields_of_special_row h
    rw [decode_of_special hop, decodeSpecial, hfunct]
    exact ⟨_, rfl, rfl⟩

/-- The coprocessor opcodes are in no row, and are named as such (R342). -/
theorem decode_of_coprocessor {w : Word} (h : isCoprocessorOp (opOf w) = true) :
    decode w = .error (.coprocessor (opOf w)) := by
  unfold decode
  split
  case h_30 => rw [if_pos h]
  all_goals
    rename_i hop
    rw [hop] at h
    cases h

end Sys2Proof

namespace Sys2Proof.Proofs

/-- Settles O2: every format's fields are read back. -/
theorem decodeOfEncode : Obligations.DecodeOfEncode := by
  unfold Obligations.DecodeOfEncode
  exact fun _ => decode_encode

/-- Settles O3: decoding names the fields that are kept, and encoding drops the others. -/
theorem encodeOfDecode : Obligations.EncodeOfDecode := by
  unfold Obligations.EncodeOfDecode
  exact fun _ _ h => (decode_ok h).2

/-- Settles O4: a row fixes the fields that decoding looks at, and no others. -/
theorem decodeFollowsTheTable : Obligations.DecodeFollowsTheTable := by
  unfold Obligations.DecodeFollowsTheTable
  exact ⟨fun _ _ h => ⟨(decode_ok h).1, tableRow_matches_of_decode h⟩, fun _ _ => decode_of_tableRow⟩

end Sys2Proof.Proofs
end

section
/-!
PROOFS of the frames: what exec leaves of the registers, the control state and memory (R103, R104, R1202, R225). First
everything that each instruction can have done, said once, with which instruction it was: the Effect of Laws/Exec.lean
with the tables of the statements (directDest, mayRaise, storeOf, ...) beside it; then the three statements.
-/

namespace Sys2Proof.Machine

open Sys2Proof.Claims

/-! ### What each instruction can do -/

/-- The effect that instruction `i` had on the state its tick handed it, and what the tables say of such an `i`. -/
inductive EffectOf (i : Instr) (s t : State) : Prop where
  /-- A direct write (R13). -/
  | direct (d : RegIdx) (v : Word) (hdest : directDest i = some d) (h : t = s.writeReg d v)
  /-- `hi` and `lo` (R104). -/
  | hiLo (hi lo : Word) (hdest : directDest i = none) (hhi : writesHi i = false → hi = s.hi)
      (hlo : writesLo i = false → lo = s.lo) (h : t = { s with hi := hi, lo := lo })
  /-- A load or MFC0; only a load reads the bus (R225, R800, R1110). -/
  | delayed (rt : RegIdx) (v : Word) (outs : List Event) (n : Nat) (hdest : directDest i = none)
      (hdelayed : isDelayedWriter i = true) (hread : isLoad i = false → outs = s.outputs ∧ n = s.draws)
      (h : t = ({ s with outputs := outs, draws := n } : State).delayLoad rt v)
  /-- A branch or jump without link (R1000). -/
  | branch (c : Bool) (target : Word) (hdest : directDest i = none) (hbranch : isBranch i = true)
      (h : t = s.branchIf c target)
  /-- A branch or jump with link (R1002). -/
  | link (d : RegIdx) (v : Word) (c : Bool) (target : Word) (hdest : directDest i = some d) (hbranch : isBranch i = true)
      (h : t = (s.writeReg d v).branchIf c target)
  /-- A store: one bus store, for SWL and SWR after one read (R900, R903). -/
  | stored (addr v : Word) (width : Width) (outs : List Event) (n : Nat) (hdest : directDest i = none)
      (hstore : storeOf i s = some (addr, width))
      (h : ({ s with outputs := outs, draws := n } : State).busWrite addr width v = .ok t)
  /-- MTC0 (R1111). -/
  | cop0 (cr : RegIdx) (v : Word) (hdest : directDest i = none) (hcop0 : mayWriteCop0 i cr = true)
      (h : t = s.writeCop0 cr v)
  /-- RFE (R1122). -/
  | popped (hdest : directDest i = none) (hcop0 : mayWriteCop0 i srIdx = true) (h : t = s.popModeStack)
  /-- Exception entry (R1210). -/
  | trapped (e : Exc) (hraise : mayRaise i = true) (h : t = s.enterException e)

/-- ADD, SUB and ADDI (R511). -/
theorem EffectOf.ofTrapIf {i : Instr} {s t : State} {c : Bool} {e : Exc} {d : RegIdx} {v : Word}
    (hraise : mayRaise i = true) (hdest : directDest i = some d)
    (h : (if c then .next (s.enterException e) else .next (s.writeReg d v) : Result) = .next t) : EffectOf i s t := by
  split at h
  · exact .trapped e hraise (next_injective h)
  · exact .direct d v hdest (next_injective h)

/-- A load raises only where its address can be misaligned. -/
theorem EffectOf.ofLoad {i : Instr} {s t : State} {rt : RegIdx} {addr : Word} {width : Width} {f : Word → Word}
    (hdest : directDest i = none) (hdelayed : isDelayedWriter i = true) (hload : isLoad i = true)
    (hraise : mayRaise i = true ∨ width.aligned addr = true) (h : s.load rt addr width f = .next t) : EffectOf i s t := by
  obtain ⟨hmis, rfl⟩ | ⟨-, v, s', hr, rfl⟩ := State.load_cases h
  · exact .trapped _ (hraise.resolve_right (ne_true_of_eq_false hmis)) rfl
  · rw [State.busRead_spec hr]
    exact .delayed rt (f v) _ _ hdest hdelayed (fun hno => nomatch hload.symm.trans hno) rfl

/-- A store raises only where its address can be misaligned. -/
theorem EffectOf.ofStore {i : Instr} {s t : State} {addr v : Word} {width : Width} (hdest : directDest i = none)
    (hstore : storeOf i s = some (addr, width)) (hraise : mayRaise i = true ∨ width.aligned addr = true)
    (h : s.store addr width v = .next t) : EffectOf i s t := by
  obtain ⟨hmis, rfl⟩ | ⟨-, hw⟩ := State.store_cases h
  · exact .trapped _ (hraise.resolve_right (ne_true_of_eq_false hmis)) rfl
  · exact .stored addr v width s.outputs s.draws hdest hstore hw

/-- SWL and SWR never raise. -/
theorem EffectOf.ofStorePartial {i : Instr} {s t : State} {ea : Word} {merge : BitVec 2 → Word → Word}
    (hdest : directDest i = none) (hstore : storeOf i s = some (wordBase ea, .word))
    (h : s.storePartial ea merge = .next t) : EffectOf i s t := by
  obtain ⟨mem, s', hr, hw⟩ := State.storePartial_cases h
  rw [State.busRead_spec hr] at hw
  exact .stored (wordBase ea) _ .word _ _ hdest hstore hw

/-- Everything that each of the 61 instructions can have done where it answers a next state. -/
theorem exec_effectOf {i : Instr} {s t : State} (h : exec i s = .next t) : EffectOf i s t := by
  cases i with
  | add d | sub d | addi d => exact .ofTrapIf rfl rfl h
  | addu d | subu d | slt d | sltu d | addiu d | slti d | sltiu d | mfhi d | mflo d | and d | or d | xor d | nor d | andi d
  | ori d | xori d | lui d | sll d | srl d | sra d | sllv d | srlv d | srav d => exact .direct d _ rfl (next_injective h)
  | mult | multu | div | divu => exact .hiLo _ _ rfl nofun nofun (next_injective h)
  | mthi => exact .hiLo _ s.lo rfl nofun (fun _ => rfl) (next_injective h)
  | mtlo => exact .hiLo s.hi _ rfl (fun _ => rfl) nofun (next_injective h)
  | lb | lbu => exact .ofLoad (width := .byte) rfl rfl rfl (.inr rfl) h
  | lh | lhu | lw => exact .ofLoad rfl rfl rfl (.inl rfl) h
  | lwl | lwr => exact .ofLoad rfl rfl rfl (.inr (aligned_wordBase _)) h
  | sb => exact .ofStore rfl rfl (.inr rfl) h
  | sh | sw => exact .ofStore rfl rfl (.inl rfl) h
  | swl | swr => rw [exec] at h; exact .ofStorePartial rfl rfl h
  | beq | bne | blez | bgtz | bltz | bgez => exact .branch _ _ rfl rfl (next_injective h)
  | j | jr => exact .branch true _ rfl rfl (next_injective h)
  | bltzal | bgezal => exact .link _ _ _ _ rfl rfl (next_injective h)
  | jal => exact .link _ _ true _ rfl rfl (next_injective ((exec_jal _ s).symm.trans h))
  | jalr => exact .link _ _ true _ rfl rfl (next_injective h)
  | syscall | brk => exact .trapped _ rfl (next_injective h)
  | mfc0 rt cr => exact .delayed rt _ s.outputs s.draws rfl rfl (fun _ => ⟨rfl, rfl⟩) (next_injective h)
  | mtc0 rt cr => exact .cop0 cr _ rfl (beq_self_eq_true cr) (next_injective h)
  | rfe => exact .popped rfl rfl (next_injective h)

/-! ### Registers and load slots -/

theorem State.reg_writeReg_of_ne (s : State) {d r : RegIdx} (h : r ≠ d) (v : Word) : (s.writeReg d v).reg r = s.reg r := by
  rw [State.reg_writeReg, if_neg fun hr => h hr.1]

theorem State.slot1_writeReg_of_ne {s : State} {d : RegIdx} (h : s.slot1.target ≠ d) (v : Word) :
    (s.writeReg d v).slot1 = s.slot1 := by
  rw [State.slot1_writeReg, if_neg fun hd => h hd.2]

/-- A register that is not the direct destination keeps its value. -/
theorem EffectOf.reg {i : Instr} {s t : State} (h : EffectOf i s t) {r : RegIdx} (hr : directDest i ≠ some r) :
    t.reg r = s.reg r := by
  cases h with
  | direct d v hdest h =>
    have hne : r ≠ d := by rintro rfl; exact hr hdest
    rw [h, s.reg_writeReg_of_ne hne]
  | link d v c target hdest hbranch h =>
    have hne : r ≠ d := by rintro rfl; exact hr hdest
    rw [h, State.reg_of_regs (State.branchIf_regs ..), s.reg_writeReg_of_ne hne]
  | stored addr v width outs n hdest hstore h => rw [(State.busWrite_spec h).1]; rfl
  | hiLo hi lo hdest hhi hlo h => exact State.reg_of_regs (by simp [h]) r
  | delayed rt v outs n hdest hdelayed hread h => exact State.reg_of_regs (by simp [h]) r
  | branch c target hdest hbranch h => exact State.reg_of_regs (by simp [h]) r
  | cop0 cr v hdest hcop0 h => exact State.reg_of_regs (by simp [h]) r
  | popped hdest hcop0 h => exact State.reg_of_regs (by simp [h]) r
  | trapped e hraise h => exact State.reg_of_regs (by simp [h]) r

/-- The load pending in slot1 is overridden only by a direct write of its target (R410). -/
theorem EffectOf.slot1 {i : Instr} {s t : State} (h : EffectOf i s t) (hr : directDest i ≠ some s.slot1.target) :
    t.slot1 = s.slot1 := by
  cases h with
  | direct d v hdest h =>
    have hne : s.slot1.target ≠ d := by rintro rfl; exact hr hdest
    rw [h, State.slot1_writeReg_of_ne hne]
  | link d v c target hdest hbranch h =>
    have hne : s.slot1.target ≠ d := by rintro rfl; exact hr hdest
    rw [h, State.branchIf_slot1, State.slot1_writeReg_of_ne hne]
  | stored addr v width outs n hdest hstore h => rw [(State.busWrite_spec h).1]
  | hiLo hi lo hdest hhi hlo h => simp [h]
  | delayed rt v outs n hdest hdelayed hread h => simp [h]
  | branch c target hdest hbranch h => simp [h]
  | cop0 cr v hdest hcop0 h => simp [h]
  | popped hdest hcop0 h => simp [h]
  | trapped e hraise h => simp [h]

/-- Only a delayed writer fills slot0, and only multiply, divide, MTHI and MTLO write `hi` and `lo`. -/
theorem EffectOf.slot0_hi_lo {i : Instr} {s t : State} (h : EffectOf i s t) :
    (isDelayedWriter i = false → t.slot0 = s.slot0) ∧ (writesHi i = false → t.hi = s.hi) ∧
    (writesLo i = false → t.lo = s.lo) := by
  cases h with
  | hiLo hi lo hdest hhi hlo h => rw [h]; exact ⟨fun _ => rfl, hhi, hlo⟩
  | delayed rt v outs n hdest hdelayed hread h =>
    rw [h]; exact ⟨fun hno => (nomatch hdelayed.symm.trans hno), fun _ => rfl, fun _ => rfl⟩
  | stored addr v width outs n hdest hstore h => rw [(State.busWrite_spec h).1]; simp
  | direct d v hdest h => simp [h]
  | branch c target hdest hbranch h => simp [h]
  | link d v c target hdest hbranch h => simp [h]
  | cop0 cr v hdest hcop0 h => simp [h]
  | popped hdest hcop0 h => simp [h]
  | trapped e hraise h => simp [h]

/-! ### Control state -/

/-- What raises may write BADVADDR, SR, CAUSE and EPC. -/
theorem mayWriteCop0_of_mayRaise {i : Instr} (h : mayRaise i = true) (r : RegIdx) :
    mayWriteCop0 i r = (r == 8 || r == 12 || r == 13 || r == 14) := by
  unfold mayWriteCop0
  split
  · cases h
  · cases h
  · rw [h, Bool.true_and]

/-- Exception entry writes BADVADDR, SR, CAUSE and EPC, and no other COP0 register (R1210). -/
theorem State.cop0At_enterException_of_ne (s : State) (e : Exc) {r : RegIdx} (hbad : r ≠ badVaddrIdx) (hsr : r ≠ srIdx)
    (hcause : r ≠ causeIdx) (hepc : r ≠ epcIdx) : (s.enterException e).cop0At r = s.cop0At r := by
  rw [State.cop0At_enterException, if_neg hsr, if_neg hepc, if_neg hcause, if_neg hbad]

/-- A COP0 register that the instruction may not write keeps its value. -/
theorem EffectOf.cop0At {i : Instr} {s t : State} (h : EffectOf i s t) {r : RegIdx} (hr : mayWriteCop0 i r = false) :
    t.cop0At r = s.cop0At r := by
  cases h with
  | cop0 cr v hdest hcop0 h =>
    rw [h, State.cop0At_writeCop0, if_neg]
    rintro rfl
    exact nomatch hcop0.symm.trans hr
  | popped hdest hcop0 h =>
    rw [h, State.cop0At_popModeStack, if_neg]
    rintro rfl
    exact nomatch hcop0.symm.trans hr
  | trapped e hraise h =>
    rw [mayWriteCop0_of_mayRaise hraise] at hr
    simp only [Bool.or_eq_false_iff, beq_eq_false_iff_ne] at hr
    obtain ⟨⟨⟨hbad, hsr⟩, hcause⟩, hepc⟩ := hr
    rw [h, s.cop0At_enterException_of_ne e hbad hsr hcause hepc]
  | stored addr v width outs n hdest hstore h => rw [(State.busWrite_spec h).1]; rfl
  | direct d v hdest h => exact State.cop0At_of_cop0 (by simp [h]) r
  | hiLo hi lo hdest hhi hlo h => exact State.cop0At_of_cop0 (by simp [h]) r
  | delayed rt v outs n hdest hdelayed hread h => exact State.cop0At_of_cop0 (by simp [h]) r
  | branch c target hdest hbranch h => exact State.cop0At_of_cop0 (by simp [h]) r
  | link d v c target hdest hbranch h => exact State.cop0At_of_cop0 (by simp [h]) r

/-- Only raising touches `pc` and the trapped note; only a branch records a target; what neither raises nor branches leaves
the pending branch; nothing touches the refused mark. -/
theorem EffectOf.control {i : Instr} {s t : State} (h : EffectOf i s t) :
    (mayRaise i = false → t.pc = s.pc ∧ t.trapped = s.trapped) ∧
    (mayRaise i = false → isBranch i = false → t.branch = s.branch) ∧
    (isBranch i = false → t.branchAddress = s.branchAddress) ∧ t.refused = s.refused := by
  cases h with
  | branch c target hdest hbranch h => simp [h, hbranch]
  | link d v c target hdest hbranch h => simp [h, hbranch]
  | trapped e hraise h => simp [h, hraise]
  | stored addr v width outs n hdest hstore h => rw [(State.busWrite_spec h).1]; simp
  | direct d v hdest h => simp [h]
  | hiLo hi lo hdest hhi hlo h => simp [h]
  | delayed rt v outs n hdest hdelayed hread h => simp [h]
  | cop0 cr v hdest hcop0 h => simp [h]
  | popped hdest hcop0 h => simp [h]

/-! ### Memory and devices -/

/-- An instruction leaves memory and the DMA registers, and the streams and the draw counter too unless it loads; or it made
the one bus store that storeOf names, on the state or on what a read left of it. -/
theorem EffectOf.memory_cases {i : Instr} {s t : State} (h : EffectOf i s t) :
    (t.mem = s.mem ∧ t.dma = s.dma ∧ (isLoad i = false → t.outputs = s.outputs ∧ t.draws = s.draws)) ∨
    ∃ addr v width outs n, storeOf i s = some (addr, width) ∧
      ({ s with outputs := outs, draws := n } : State).busWrite addr width v = .ok t := by
  cases h with
  | stored addr v width outs n hdest hstore h => exact .inr ⟨addr, v, width, outs, n, hstore, h⟩
  | delayed rt v outs n hdest hdelayed hread h => rw [h]; exact .inl ⟨rfl, rfl, hread⟩
  | direct d v hdest h => simp [h]
  | hiLo hi lo hdest hhi hlo h => simp [h]
  | branch c target hdest hbranch h => simp [h]
  | link d v c target hdest hbranch h => simp [h]
  | cop0 cr v hdest hcop0 h => simp [h]
  | popped hdest hcop0 h => simp [h]
  | trapped e hraise h => simp [h]

/-- A byte that the named bus store does not write keeps its value. -/
theorem EffectOf.readByte_of_store {i : Instr} {s t : State} (h : EffectOf i s t) {addr : Word} {width : Width}
    (hstore : storeOf i s = some (addr, width)) {a : Nat} (ha : a ∉ s.storedBytes addr width) :
    t.readByte a = s.readByte a := by
  obtain ⟨hmem, -⟩ | ⟨addr', v, width', outs, n, hstore', hwrite⟩ := h.memory_cases
  · exact State.readByte_of_mem hmem a
  · cases hstore.symm.trans hstore'
    obtain ⟨-, -, -, hother⟩ := State.busWrite_spec hwrite
    exact hother a ha

/-- An instruction that is no store leaves memory and the DMA registers, and unless it loads the streams and the counter. -/
theorem EffectOf.memory_of_no_store {i : Instr} {s t : State} (h : EffectOf i s t) (hstore : storeOf i s = none) :
    t.mem = s.mem ∧ t.dma = s.dma ∧ (isLoad i = false → t.outputs = s.outputs ∧ t.draws = s.draws) :=
  h.memory_cases.resolve_right fun ⟨_, _, _, _, _, hstore', _⟩ => nomatch hstore.symm.trans hstore'

end Sys2Proof.Machine

namespace Sys2Proof.Proofs

open Sys2Proof.Machine

/-- Settles O55, from the one effect of each instruction. -/
theorem frameRegisters : Obligations.FrameRegisters := by
  unfold Obligations.FrameRegisters
  intro i s t hexec
  have h := exec_effectOf hexec
  obtain ⟨hslot0, hhi, hlo⟩ := h.slot0_hi_lo
  exact ⟨fun _ => h.reg, hslot0, h.slot1, hhi, hlo⟩

/-- Settles O56, from the one effect of each instruction. -/
theorem frameControl : Obligations.FrameControl := by
  unfold Obligations.FrameControl
  intro i s t hexec
  have h := exec_effectOf hexec
  obtain ⟨hpc, hbranch, haddress, hrefused⟩ := h.control
  exact ⟨hpc, hbranch, haddress, fun _ => h.cop0At, (exec_effect i s t hexec).branchDelay, hrefused⟩

/-- Settles O57: an instruction makes no bus store but the one that storeOf names. -/
theorem frameMemory : Obligations.FrameMemory := by
  unfold Obligations.FrameMemory
  intro i s t hexec
  have h := exec_effectOf hexec
  refine ⟨fun addr width hstore a => h.readByte_of_store hstore, fun hstore => ?_, fun hstore => ?_⟩
  · obtain ⟨hmem, hdma, -⟩ := h.memory_of_no_store hstore
    exact ⟨hdma, State.readByte_of_mem hmem⟩
  · exact (h.memory_of_no_store hstore).2.2

end Sys2Proof.Proofs
end

section
/-!
PROOFS about exceptions and COP0 (60_exceptions.md R1210 to R1216, 47_system.md R1100 to R1122): exception entry, SYSCALL
and BREAK, the return, and the COP0 moves. First entry as the statements say it and where its tick ends; then SR's mode
stack bit by bit and the write mask; then the four statements.
-/

namespace Sys2Proof.Machine

open Sys2Proof.Claims

/-! ### Exception entry (R1210) -/

/-- Entry is what the statements say it is, for each of the five kinds. -/
theorem State.entered_enterException (s : State) (e : Exc) : Entered s e.code e.badAddress (s.enterException e) := by
  refine ⟨?_, ?_, ?_, ?_, fun i hbad hsr hcause hepc => s.cop0At_enterException_of_ne e hbad hsr hcause hepc,
    s.pc_enterException e, ?_, State.readByte_of_mem (s.enterException_mem e)⟩
  · rw [State.cop0At_enterException]; rfl
  · rw [State.cop0At_enterException]; rfl
  · rw [State.cop0At_enterException]; rfl
  · rw [State.cop0At_enterException]; rfl
  · rw [State.pc_enterException]; exact s.enterException_eq e

/-- The tick of an exception ends at the vector, with no branch pending: entry leaves `pc` 4 below it (R1213). -/
theorem State.endTick_enterException (s : State) (e : Exc) :
    (s.enterException e).endTick.pc = vectorOf (s.cop0At srIdx) ∧ (s.enterException e).endTick.branch = false := by
  obtain ⟨hpc, hbranch⟩ := State.endTick_of_not_resolves (.inr (s.enterException_trapped e))
  rw [hpc, hbranch, State.pc_enterException, BitVec.sub_add_cancel]
  exact ⟨rfl, s.enterException_branch e⟩

/-- An instruction that always raises completes with the entry, and its tick ends at the vector. -/
theorem completes_of_enterException {r : Result} {s : State} {e : Exc} (h : r = .next (s.enterException e)) :
    ∃ t, r = .next t ∧ Entered s e.code e.badAddress t ∧ t.endTick.branch = false ∧
      t.endTick.pc = vectorOf (s.cop0At srIdx) := by
  obtain ⟨hpc, hbranch⟩ := s.endTick_enterException e
  exact ⟨_, h, s.entered_enterException e, hbranch, hpc⟩

theorem exec_syscall (code : BitVec 20) (s : State) : exec (.syscall code) s = .next (s.enterException .syscall) := rfl

theorem exec_brk (code : BitVec 20) (s : State) : exec (.brk code) s = .next (s.enterException .breakpoint) := rfl

/-! ### The mode stack of SR (R1122, R1214) -/

/-- The bits of a mask of the low `n` bits. -/
theorem getLsbD_lowMask {n : Nat} (hn : n ≤ 32) (k : Nat) : (BitVec.ofNat 32 (2 ^ n - 1)).getLsbD k = decide (k < n) := by
  rw [BitVec.getLsbD_ofNat, Nat.testBit_two_pow_sub_one, ← Bool.decide_and, decide_eq_decide]
  exact and_iff_right_of_imp fun hk => hk.trans_le hn

/-- A pop moves bits 5:2 to bits 3:0 and keeps the bits above. -/
theorem getLsbD_srPop (sr : Word) (k : Nat) : (srPop sr).getLsbD k = sr.getLsbD (if k < 4 then k + 2 else k) := by
  have hmask : (0x0000000F#32).getLsbD k = decide (k < 4) := getLsbD_lowMask (n := 4) (by decide) k
  rw [srPop, BitVec.getLsbD_or, BitVec.getLsbD_and, BitVec.getLsbD_and, BitVec.getLsbD_not, BitVec.getLsbD_ushiftRight, hmask]
  by_cases hk : k < 4
  · simp [hk, Nat.add_comm]
  · simp [hk]; exact BitVec.lt_of_getLsbD

/-- A push moves bits 3:0 to bits 5:2. -/
theorem getLsbD_srPush (sr : Word) {k : Nat} (hk : k < 4) : (srPush sr).getLsbD (k + 2) = sr.getLsbD k := by
  have hmask : (0x0000003F#32).getLsbD (k + 2) = decide (k + 2 < 6) := getLsbD_lowMask (n := 6) (by decide) _
  have h32 : k + 2 < 32 := by omega
  rw [srPush, BitVec.getLsbD_or, BitVec.getLsbD_and, BitVec.getLsbD_and, BitVec.getLsbD_not, BitVec.getLsbD_shiftLeft, hmask]
  have h6 : k + 2 < 6 := by omega
  simp [h32, h6]

/-- SR after the return. -/
theorem State.sr_popModeStack (s : State) : s.popModeStack.cop0At 12 = srPop (s.cop0At 12) :=
  (s.cop0At_popModeStack srIdx).trans (if_pos rfl)

/-- SR after exception entry. -/
theorem State.sr_enterException (s : State) (e : Exc) : (s.enterException e).cop0At 12 = srPush (s.cop0At 12) :=
  (s.cop0At_enterException e srIdx).trans (if_pos rfl)

/-! ### The COP0 moves (R125, R1110, R1111) -/

/-- The write mask as the statement of MTC0 lists it. -/
theorem writeMask_eq (i : RegIdx) :
    writeMask i = if i = 3 ∨ i = 5 ∨ i = 7 ∨ i = 9 ∨ i = 11 ∨ i = 12 then BitVec.allOnes 32
      else if i = 13 then 0x00000300#32 else 0#32 := by
  revert i; decide

theorem State.loaded_delayLoad_self (s : State) (rt : RegIdx) (v : Word) : Loaded s rt v (s.delayLoad rt v) :=
  ⟨rfl, fun _ => rfl, rfl, fun _ => rfl⟩

/-- What the register that MTC0 names holds after it. -/
theorem State.cop0At_writeCop0_self (s : State) (cr : RegIdx) (v : Word) :
    (s.writeCop0 cr v).cop0At cr =
      if cr = 3 ∨ cr = 5 ∨ cr = 7 ∨ cr = 9 ∨ cr = 11 ∨ cr = 12 then v
      else if cr = 13 then (s.cop0At 13 &&& 0xFFFFFCFF#32) ||| (v &&& 0x00000300#32)
      else s.cop0At cr := by
  rw [State.cop0At_writeCop0, if_pos rfl, writeMask_eq]
  split
  · rw [BitVec.and_allOnes, BitVec.not_allOnes, BitVec.and_zero, BitVec.zero_or]
  · split
    · next h => rw [h]; rfl
    · rw [BitVec.not_zero, BitVec.and_allOnes, BitVec.and_zero, BitVec.or_zero]

theorem exec_mfc0 (rt cr : RegIdx) (s : State) : exec (.mfc0 rt cr) s = .next (s.delayLoad rt (s.cop0At cr)) := rfl

theorem exec_mtc0 (rt cr : RegIdx) (s : State) : exec (.mtc0 rt cr) s = .next (s.writeCop0 cr (s.reg rt)) := rfl

theorem exec_rfe (s : State) : exec .rfe s = .next s.popModeStack := rfl

end Sys2Proof.Machine

namespace Sys2Proof.Proofs

open Sys2Proof.Machine

/-- Settles O50: all five kinds are one entry. -/
theorem exceptionEntry : Obligations.ExceptionEntry := by
  unfold Obligations.ExceptionEntry
  exact fun s bad => ⟨s.entered_enterException (.adel bad), s.entered_enterException (.ades bad),
    s.entered_enterException .syscall, s.entered_enterException .breakpoint, s.entered_enterException .overflow⟩

/-- Settles O51: both raise whatever their code, and the tick of an exception ends at the vector. -/
theorem syscallAndBreak : Obligations.SyscallAndBreak := by
  unfold Obligations.SyscallAndBreak
  exact fun s code => ⟨completes_of_enterException (exec_syscall code s), completes_of_enterException (exec_brk code s)⟩

/-- Settles O53: MFC0 is a delayed load, and MTC0's mask has three values. -/
theorem cop0Moves : Obligations.Cop0Moves := by
  unfold Obligations.Cop0Moves
  intro s rt cr
  refine ⟨⟨_, exec_mfc0 rt cr s, s.loaded_delayLoad_self rt _, rfl, rfl⟩, ⟨_, exec_mtc0 rt cr s, rfl, fun i hi => ?_,
    s.cop0At_writeCop0_self cr _⟩⟩
  rw [State.cop0At_writeCop0, if_neg hi]

/-- Settles O54: the pop and the push of the mode stack bit by bit. -/
theorem returnFromException : Obligations.ReturnFromException := by
  unfold Obligations.ReturnFromException
  refine fun s => ⟨⟨_, exec_rfe s, rfl, fun i hi => ?_, fun k hk => ?_, fun k hk => ?_⟩, fun e k hk => ?_⟩
  · exact (s.cop0At_popModeStack i).trans (if_neg hi)
  · rw [State.sr_popModeStack, getLsbD_srPop, if_pos hk]
  · rw [State.sr_popModeStack, getLsbD_srPop, if_neg (Nat.not_lt.mpr hk)]
  · rw [State.sr_popModeStack, getLsbD_srPop, if_pos hk, State.sr_enterException, getLsbD_srPush _ hk]

end Sys2Proof.Proofs
end

section
/-!
PROOFS about the tick (40_tick.md): its begin, its fetch and its end, which steps are refused, where `pc` can go, and when a
pending load commits. First when a step runs an instruction and when not; then what an effect leaves for the end of the
tick; then the statements.
-/

namespace Sys2Proof.Machine

open Sys2Proof.Claims

/-! ### Which instruction a step runs (R400, R404, R405) -/

/-- With an aligned `pc` the step runs the word that the fetch reads. -/
theorem step_of_fetch {s s1 : State} {w : Word} (hrefused : s.refused = false) (haligned : s.pc &&& 3#32 = 0#32)
    (hfetch : s.beginTick.busRead s.pc .word = .ok (w, s1)) : step s = runWord w s1 := by
  have hfetchable : s.beginTick.fetchable = true := by
    rw [State.fetchable, State.beginTick_pc]
    exact beq_iff_eq.mpr haligned
  rw [step, hrefused, if_neg Bool.false_ne_true, if_pos hfetchable, State.fetch, State.beginTick_pc, hfetch]

/-- The step of a word that decodes is exec of its instruction and the end of the tick. -/
theorem step_of_decode {s s1 : State} {w : Word} {i : Instr} (hrefused : s.refused = false)
    (haligned : s.pc &&& 3#32 = 0#32) (hfetch : s.beginTick.busRead s.pc .word = .ok (w, s1)) (hdecode : decode w = .ok i) :
    step s = finishTick (exec i s1) := by
  rw [step_of_fetch hrefused haligned hfetch, runWord, hdecode]

/-- With a misaligned `pc` the step is the exception of the fetch (R404). -/
theorem step_of_misaligned {s : State} (hrefused : s.refused = false) (hmisaligned : s.pc &&& 3#32 ≠ 0#32) :
    step s = .next s.beginTick.faultFetch.endTick := by
  have hfetchable : ¬ s.beginTick.fetchable = true := by
    rw [State.fetchable, State.beginTick_pc]
    exact fun h => hmisaligned (beq_iff_eq.mp h)
  rw [step, hrefused, if_neg Bool.false_ne_true, if_neg hfetchable, finishTick]

/-- Four bytes decode as the word they make. -/
theorem decode_of_decodeBytes {b0 b1 b2 b3 : Byte} {i : Instr} {rest : List Byte}
    (h : decodeBytes [b0, b1, b2, b3] = .ok (i, rest)) : decode (wordOfBytes b0 b1 b2 b3) = .ok i := by
  unfold decodeBytes at h
  dsimp only at h
  cases hd : decode (wordOfBytes b0 b1 b2 b3) with
  | ok j => rw [hd] at h; cases h; rfl
  | error r => rw [hd] at h; cases h

/-- A fetch from a byte device reads the four bytes at `pc`, the lowest address first. -/
theorem State.fetch_of_device {s : State} {d : ByteDevice} (h : deviceOf (regionOf (maskAddress s.pc)) = some d) :
    s.beginTick.busRead s.pc .word =
      .ok (wordOfBytes (byteAt s d s.pc 0) (byteAt s d s.pc 1) (byteAt s d s.pc 2) (byteAt s d s.pc 3), s.beginTick) := by
  rw [State.busRead_of_device h, State.beginTick_mem]
  rfl

/-- What the fetch hands to the instruction: the state before the tick, its slot0 moved to slot1. -/
theorem State.regs_of_fetch {s s1 : State} {w : Word} (h : s.beginTick.busRead s.pc .word = .ok (w, s1)) :
    s1.regs = s.regs ∧ s1.slot1 = s.slot0 ∧ s1.trapped = false := by
  rw [State.busRead_spec h]
  exact ⟨s.beginTick_regs, s.beginTick_slot1, s.beginTick_trapped⟩

/-! ### What an effect leaves for the end of the tick -/

/-- An effect is an exception entry, or leaves `pc` and notes no exception. -/
theorem Effect.pc_cases {s t : State} (h : Effect s t) :
    (∃ e, t = s.enterException e) ∨ (t.pc = s.pc ∧ t.trapped = s.trapped) := by
  cases h with
  | trapped e h => exact .inl ⟨e, h⟩
  | direct d v h => exact .inr (by simp [h])
  | hiLo hi lo h => exact .inr (by simp [h])
  | delayed rt v outs n h => exact .inr (by simp [h])
  | branch c target h => exact .inr (by simp [h])
  | link d v c target h => exact .inr (by simp [h])
  | stored addr width mem dma outs n h => exact .inr (by simp [h])
  | cop0 i v h => exact .inr (by simp [h])
  | popped h => exact .inr (by simp [h])

/-- An effect on a state that no exception was noted in notes one exactly by entering it. -/
theorem Effect.enterException_of_trapped {s t : State} (h : Effect s t) (hs : s.trapped = false) (ht : t.trapped = true) :
    ∃ e, t = s.enterException e :=
  h.pc_cases.resolve_right fun ⟨_, hkept⟩ => nomatch ht.symm.trans (hkept.trans hs)

/-- No effect sets the refused mark. -/
theorem Effect.refused {s t : State} (h : Effect s t) : t.refused = s.refused := by
  cases h with
  | direct d v h => simp [h]
  | hiLo hi lo h => simp [h]
  | delayed rt v outs n h => simp [h]
  | branch c target h => simp [h]
  | link d v c target h => simp [h]
  | stored addr width mem dma outs n h => simp [h]
  | cop0 i v h => simp [h]
  | popped h => simp [h]
  | trapped e h => simp [h]

/-- A step neither starts from a refused state nor ends in one (R147). -/
theorem step_refused {s t : State} (h : step s = .next t) : s.refused = false ∧ t.refused = false := by
  have hs : s.refused = false := (step_cases h).1
  obtain ⟨s1, e, hs1, heff, rfl⟩ := step_effect h
  have hs1' : s1.refused = s.refused := by rw [hs1]; exact s.beginTick_refused
  exact ⟨hs, by rw [State.endTick_refused, heff.refused, hs1', hs]⟩

/-- A vector is one of the two (R1213). -/
theorem vectorOf_cases (sr : Word) : vectorOf sr = 0x80000080#32 ∨ vectorOf sr = 0xBFC00180#32 := by
  unfold vectorOf
  split
  · exact .inr rfl
  · exact .inl rfl

/-- Where a step ends: at a vector with no branch pending, or, where no exception was taken, at the target recorded for a
delay slot and else at `pc + 4` (R406, R411, R1213). -/
theorem step_pc_cases {s t : State} (h : step s = .next t) :
    ((∃ sr, t.pc = vectorOf sr) ∧ t.branch = false) ∨
    (s.branch = true ∧ t.pc = t.branchAddress ∧ t.branch = false) ∨
    (s.branch = false ∧ t.pc = s.pc + 4#32) := by
  obtain ⟨s1, e, hs1, heff, rfl⟩ := step_effect h
  have hpc : s1.pc = s.pc := by rw [hs1]; exact s.beginTick_pc
  have hdelay : e.branchDelay = s.branch := by rw [heff.branchDelay, hs1]; exact s.beginTick_branchDelay
  have htrapped : s1.trapped = false := by rw [hs1]; exact s.beginTick_trapped
  obtain ⟨x, rfl⟩ | ⟨hepc, hetrapped⟩ := heff.pc_cases
  · obtain ⟨hvector, hbranch⟩ := s1.endTick_enterException x
    exact .inl ⟨⟨_, hvector⟩, hbranch⟩
  · cases hb : s.branch with
    | true =>
      obtain ⟨hend, hbranch⟩ := State.endTick_of_resolves (hdelay.trans hb) (hetrapped.trans htrapped)
      exact .inr (.inl ⟨rfl, hend.trans e.endTick_branchAddress.symm, hbranch⟩)
    | false =>
      obtain ⟨hend, -⟩ := State.endTick_of_not_resolves (.inl (hdelay.trans hb))
      exact .inr (.inr ⟨rfl, by rw [hend, hepc, hpc]⟩)

/-! ### The pending load (R410, R413) -/

/-- A load in slot1 that is not overridden is in its register after the tick. -/
theorem State.endTick_reg_of_pending {s : State} (htarget : s.slot1.target ≠ 0) (hmodified : s.slot1.modified = false) :
    s.endTick.reg s.slot1.target = s.slot1.value := by
  rw [State.endTick_reg, if_pos ⟨rfl, htarget, hmodified⟩]

/-- An overridden load does not commit. -/
theorem State.endTick_reg_of_modified {s : State} (h : s.slot1.modified = true) (r : RegIdx) :
    s.endTick.reg r = s.reg r := by
  simp [State.endTick_reg, h]

theorem State.modified_writeReg {s : State} (h : s.slot1.target ≠ 0) (v : Word) :
    (s.writeReg s.slot1.target v).slot1.modified = true := by
  rw [State.slot1_writeReg, if_pos ⟨h, rfl⟩]

/-- An instruction whose direct destination is the target of the pending load overrides it, unless it raises. -/
theorem EffectOf.overrides {i : Instr} {s t : State} (h : EffectOf i s t) (htarget : s.slot1.target ≠ 0)
    (hdest : directDest i = some s.slot1.target) : t.slot1.modified = true ∨ t.trapped = true := by
  cases h with
  | direct d v hdest' h =>
    cases hdest.symm.trans hdest'
    exact .inl (by rw [h, State.modified_writeReg htarget])
  | link d v c target hdest' hbranch h =>
    cases hdest.symm.trans hdest'
    exact .inl (by rw [h, State.branchIf_slot1, State.modified_writeReg htarget])
  | trapped e hraise h => exact .inr (by rw [h, State.enterException_trapped])
  | hiLo hi lo hdest' => cases hdest.symm.trans hdest'
  | delayed rt v outs n hdest' => cases hdest.symm.trans hdest'
  | branch c target hdest' => cases hdest.symm.trans hdest'
  | stored addr v width outs n hdest' => cases hdest.symm.trans hdest'
  | cop0 cr v hdest' => cases hdest.symm.trans hdest'
  | popped hdest' => cases hdest.symm.trans hdest'

end Sys2Proof.Machine

namespace Sys2Proof.Proofs

open Sys2Proof.Machine Sys2Proof.Claims

/-- Settles O5: only a word of a row decodes, and a refused tick answers no state. -/
theorem refusedWordsAndStates : Obligations.RefusedWordsAndStates := by
  unfold Obligations.RefusedWordsAndStates
  refine ⟨fun w hrows => ?_, fun _ => decode_of_coprocessor, fun s s1 w r hrefused haligned hfetch hdecode => ?_,
    fun s hrefused => if_pos hrefused, fun _ _ => step_refused⟩
  · cases hd : decode w with
    | ok i => exact nomatch (hrows i).symm.trans (tableRow_matches_of_decode hd)
    | error r => exact ⟨r, rfl⟩
  · rw [step_of_fetch hrefused haligned hfetch, runWord, hdecode]

/-- Settles O6: the step is finishTick of exec, and a byte device answers the fetch with its four bytes. -/
theorem stepRunsTheInstructionAtPc : Obligations.StepRunsTheInstructionAtPc := by
  unfold Obligations.StepRunsTheInstructionAtPc
  have hfirst : ∀ (s s1 : State) (w : Word) (i : Instr), s.refused = false → s.pc &&& 3#32 = 0#32 →
      s.beginTick.busRead s.pc .word = .ok (w, s1) → decode w = .ok i →
      (∀ t, exec i s1 = .next t → step s = .next t.endTick) ∧ (∀ q, exec i s1 = .refused q → step s = .refused q) := by
    intro s s1 w i hrefused haligned hfetch hdecode
    rw [step_of_decode hrefused haligned hfetch hdecode]
    exact ⟨fun t h => by rw [h, finishTick], fun q h => by rw [h, finishTick]⟩
  exact ⟨hfirst, fun s d i hrefused haligned hdevice hbytes =>
    hfirst s _ _ i hrefused haligned (State.fetch_of_device hdevice) (decode_of_decodeBytes hbytes)⟩

/-- Settles O7: the TTY hook's condition is the one of R402, and the other steps set their own fields. -/
theorem beginTick : Obligations.BeginTick := by
  unfold Obligations.BeginTick
  intro s
  have hcalled : s.startTransients.ttyCalled = true ↔
      (s.pc &&& 0x1FFFFFFF#32 = 0xA0#32 ∧ s.reg 9 = 0x3C#32) ∨ (s.pc &&& 0x1FFFFFFF#32 = 0xB0#32 ∧ s.reg 9 = 0x3D#32) := by
    simp only [State.ttyCalled, Bool.or_eq_true, Bool.and_eq_true, beq_iff_eq]
    rfl
  have hbyte : (s.startTransients.reg 4).extractLsb' 0 8 = (s.reg 4).setWidth 8 :=
    (BitVec.setWidth_eq_extractLsb' (by decide)).symm
  unfold State.beginTick State.ttyHook
  by_cases h : s.startTransients.ttyCalled = true
  · rw [if_pos h, if_pos (hcalled.mp h), hbyte]; rfl
  · rw [if_neg h, if_neg (mt hcalled.mpr h)]; rfl

/-- Settles O9, field by field. -/
theorem endTickCommitsTheLoad : Obligations.EndTickCommitsTheLoad := by
  unfold Obligations.EndTickCommitsTheLoad
  exact fun s => ⟨s.endTick_reg, s.endTick_regs_zero, s.endTick_slot1, s.endTick_slot0, s.endTick_hi, s.endTick_lo,
    State.cop0At_of_cop0 s.endTick_cop0, s.endTick_directWritten, s.endTick_trapped, s.endTick_refused⟩

/-- Settles O10: the faulted fetch is an exception entry on the state that begins the tick. -/
theorem misalignedFetchTakesAdEL : Obligations.MisalignedFetchTakesAdEL := by
  unfold Obligations.MisalignedFetchTakesAdEL
  intro s hrefused hmisaligned
  have hentry := s.beginTick.entered_enterException (.adel s.beginTick.pc)
  obtain ⟨hpc, hbranch⟩ := s.beginTick.endTick_enterException (.adel s.beginTick.pc)
  rw [State.cop0At_of_cop0 s.beginTick_cop0] at hpc
  rw [State.beginTick_pc] at hentry hpc hbranch
  refine ⟨_, _, hentry, ?_, rfl, hpc, hbranch⟩
  rw [step_of_misaligned hrefused hmisaligned, State.faultFetch, State.beginTick_pc]

/-- Settles O11, by the three ways a step can end. -/
theorem pcAfterStep : Obligations.PcAfterStep := by
  unfold Obligations.PcAfterStep
  intro s t h
  obtain ⟨⟨sr, hpc⟩, hbranch⟩ | ⟨hb, hpc, hbranch⟩ | ⟨hb, hpc⟩ := step_pc_cases h
  · have hvector := vectorOf_cases sr
    rw [← hpc] at hvector
    exact ⟨fun _ => .inr ⟨hbranch, hvector⟩, fun _ => ⟨hbranch, .inr hvector⟩⟩
  · exact ⟨fun hno => (nomatch hb.symm.trans hno), fun _ => ⟨hbranch, .inl hpc⟩⟩
  · exact ⟨fun _ => .inl hpc, fun hyes => (nomatch hb.symm.trans hyes)⟩

/-- Settles O12: slot1 of the tick is slot0 before it, and only a direct write of its target overrides it. -/
theorem pendingLoadCommitsOneTickLater : Obligations.PendingLoadCommitsOneTickLater := by
  unfold Obligations.PendingLoadCommitsOneTickLater
  intro s s1 e w i hrefused haligned hfetch hdecode hexec htarget hmodified
  obtain ⟨hregs, hslot, htrapped⟩ := State.regs_of_fetch hfetch
  have heff := exec_effectOf hexec
  rw [← hslot] at htarget hmodified ⊢
  refine ⟨State.reg_of_regs hregs, e.endTick, ?_, fun hkept => ?_, fun hdest hnotrap => ?_⟩
  · rw [step_of_decode hrefused haligned hfetch hdecode, hexec, finishTick]
  · have hslot1 : e.slot1 = s1.slot1 := by
      obtain hdest | htrap := hkept
      · exact heff.slot1 hdest
      · obtain ⟨x, rfl⟩ := (exec_effect i s1 e hexec).enterException_of_trapped htrapped htrap
        exact s1.enterException_slot1 x
    rw [← hslot1] at htarget hmodified ⊢
    exact State.endTick_reg_of_pending htarget hmodified
  · have hoverridden : e.slot1.modified = true :=
      (heff.overrides htarget hdest).resolve_right (ne_true_of_eq_false hnotrap)
    exact State.endTick_reg_of_modified hoverridden _

end Sys2Proof.Proofs
end

section
/-!
PROOFS about the whole machine: the invariant between two ticks (10_state.md), at reset (70_reset_and_hazards.md R1300) and
kept by every step, and the COP0 registers that never change (R125, R127, R132). First what a step leaves of COP0 and of
memory; then the aligned delay slot; then reset; then the statements.
-/

namespace Sys2Proof.Machine

/-! ### COP0 registers that no step writes (R125, R127, R132) -/

/-- A register with an empty write mask that exception entry does not name either keeps its value. SR and CAUSE, which RFE
and entry also write, have masks that are not empty. -/
theorem Effect.cop0At_of_constant {s t : State} (h : Effect s t) {i : RegIdx} (hmask : writeMask i = 0#32)
    (hbad : i ≠ badVaddrIdx) (hepc : i ≠ epcIdx) : t.cop0At i = s.cop0At i := by
  have hsr : i ≠ srIdx := by rintro rfl; exact absurd hmask (by decide)
  have hcause : i ≠ causeIdx := by rintro rfl; exact absurd hmask (by decide)
  obtain h | ⟨j, v, rfl⟩ | rfl | ⟨e, rfl⟩ := h.cop0_cases
  · exact State.cop0At_of_cop0 h i
  · by_cases hij : i = j
    · subst hij; rw [s.writeCop0_of_mask_zero v hmask]
    · rw [State.cop0At_writeCop0, if_neg hij]
  · rw [State.cop0At_popModeStack, if_neg hsr]
  · exact s.cop0At_enterException_of_ne e hbad hsr hcause hepc

/-- A step writes a COP0 register only by its effect. -/
theorem step_cop0At_of_constant {s t : State} (h : step s = .next t) {i : RegIdx} (hmask : writeMask i = 0#32)
    (hbad : i ≠ badVaddrIdx) (hepc : i ≠ epcIdx) : t.cop0At i = s.cop0At i := by
  obtain ⟨s1, e, hs1, heff, rfl⟩ := step_effect h
  have hcop0 : s1.cop0 = s.cop0 := by rw [hs1]; exact s.beginTick_cop0
  rw [State.cop0At_of_cop0 e.endTick_cop0, heff.cop0At_of_constant hmask hbad hepc, State.cop0At_of_cop0 hcop0]

/-- PRID, JUMPDEST and the unnamed registers are such registers. -/
theorem constant_of_constantZeroCop0 (i : RegIdx) (h : constantZeroCop0 i = true ∨ i = 15) :
    writeMask i = 0#32 ∧ i ≠ badVaddrIdx ∧ i ≠ epcIdx := by
  revert i; decide

/-! ### The unwritten bits of CAUSE (R129) -/

/-- Entry writes BD and ExcCode only: every code fits the five bits of ExcCode. -/
theorem causeOnEntry_and_unwritten (cause : Word) (e : Exc) (inDelaySlot : Bool) :
    causeOnEntry cause e.code inDelaySlot &&& ~~~ causeWritten = cause &&& ~~~ causeWritten := by
  have hcode : (e.code <<< 2) &&& ~~~ causeWritten = 0#32 := by
    cases e <;> simp only [Exc.code] <;> decide
  have hkeep : ~~~ 0x0000007C#32 &&& ~~~ causeWritten = ~~~ causeWritten := by decide
  have hset : 0x80000000#32 &&& ~~~ causeWritten = 0#32 := by decide
  have hclear : 0x7FFFFFFF#32 &&& ~~~ causeWritten = ~~~ causeWritten := by decide
  have hbody : ((cause &&& ~~~ 0x0000007C#32) ||| (e.code <<< 2)) &&& ~~~ causeWritten = cause &&& ~~~ causeWritten := by
    rw [BitVec.and_or_distrib_right, hcode, BitVec.or_zero, BitVec.and_assoc, hkeep]
  unfold causeOnEntry
  cases inDelaySlot with
  | false => exact (BitVec.and_assoc ..).trans ((congrArg _ hclear).trans hbody)
  | true => exact (BitVec.and_or_distrib_right ..).trans ((congrArg _ hset).trans (BitVec.or_zero.trans hbody))

/-- The bits of CAUSE that nothing writes keep their values. -/
theorem Effect.cause_unwritten {s t : State} (h : Effect s t) :
    t.cop0At causeIdx &&& ~~~ causeWritten = s.cop0At causeIdx &&& ~~~ causeWritten := by
  obtain h | ⟨j, v, rfl⟩ | rfl | ⟨e, rfl⟩ := h.cop0_cases
  · rw [State.cop0At_of_cop0 h]
  · by_cases hj : causeIdx = j
    · subst hj
      have hmask : writeMask causeIdx &&& ~~~ causeWritten = 0#32 := by decide
      have hrest : ~~~ writeMask causeIdx &&& ~~~ causeWritten = ~~~ causeWritten := by decide
      rw [State.cop0At_writeCop0, if_pos rfl, BitVec.and_or_distrib_right, BitVec.and_assoc, BitVec.and_assoc, hmask, hrest,
        BitVec.and_zero, BitVec.or_zero]
    · rw [State.cop0At_writeCop0, if_neg hj]
  · rw [State.cop0At_popModeStack, if_neg (by decide)]
  · rw [State.cop0At_enterException, if_neg (by decide), if_neg (by decide), if_pos rfl, causeOnEntry_and_unwritten]

/-! ### Memory and slot0 -/

/-- An effect keeps memory canonical and inside the devices. -/
theorem Effect.mem {s t : State} (h : Effect s t) :
    (s.mem.wf → t.mem.wf) ∧ (s.mem.located → t.mem.located) := by
  cases h with
  | stored addr width mem dma outs n h hwf hloc hother => rw [h]; exact ⟨hwf, hloc⟩
  | direct d v h => simp [h]
  | hiLo hi lo h => simp [h]
  | delayed rt v outs n h => simp [h]
  | branch c target h => simp [h]
  | link d v c target h => simp [h]
  | cop0 i v h => simp [h]
  | popped h => simp [h]
  | trapped e h => simp [h]

/-- A load just issued is not overridden: only slot1 can be (R410). -/
theorem Effect.slot0_fresh {s t : State} (h : Effect s t) (hs : s.slot0.modified = false) : t.slot0.modified = false := by
  cases h with
  | delayed rt v outs n h => rw [h, State.delayLoad_slot0]; split <;> rfl
  | direct d v h => simpa [h] using hs
  | hiLo hi lo h => simpa [h] using hs
  | branch c target h => simpa [h] using hs
  | link d v c target h => simpa [h] using hs
  | stored addr width mem dma outs n h => simpa [h] using hs
  | cop0 i v h => simpa [h] using hs
  | popped h => simpa [h] using hs
  | trapped e h => simpa [h] using hs

/-! ### The aligned delay slot (R1003, R1211) -/

theorem aligned_add_four (a : Word) : Width.word.aligned (a + 4#32) = Width.word.aligned a := by
  have hmod : (a + 4#32) &&& 3#32 = a &&& 3#32 := by
    apply BitVec.eq_of_toNat_eq
    have h : ∀ n, n &&& 3 = n % 4 := fun n => Nat.and_two_pow_sub_one_eq_mod n 2
    simp only [BitVec.toNat_and, BitVec.toNat_add, BitVec.toNat_ofNat, h]
    omega
  show ((a + 4#32) &&& 3#32 == 0#32) = (a &&& 3#32 == 0#32)
  rw [hmod]

/-- A step that ends with a branch pending fetched at an aligned `pc` and ends at the next word: a faulted fetch and every
other exception drop the branch. -/
theorem step_delay_slot_aligned {s t : State} (h : step s = .next t) (hbranch : t.branch = true) :
    Width.word.aligned t.pc = true := by
  have hend := step_pc_cases h
  simp only [hbranch, Bool.true_eq_false, and_false, false_or] at hend
  rw [hend.2, aligned_add_four]
  obtain ⟨-, ⟨hfetchable, -⟩ | ⟨-, rfl⟩⟩ := step_cases h
  · rwa [State.fetchable, State.beginTick_pc] at hfetchable
  · exact nomatch hbranch.symm.trans (s.beginTick.endTick_enterException _).2

/-- Every step keeps the invariant. -/
theorem State.Inv.step {s t : State} (hs : s.Inv) (h : step s = .next t) : t.Inv := by
  obtain ⟨s1, e, hs1, heff, ht⟩ := step_effect h
  have hmem : s1.mem = s.mem := by rw [hs1]; exact s.beginTick_mem
  have hcop0 : s1.cop0 = s.cop0 := by rw [hs1]; exact s.beginTick_cop0
  have hslot0 : s1.slot0 = Slot.empty := by rw [hs1]; exact s.beginTick_slot0
  obtain ⟨hwf, hlocated⟩ := heff.mem
  rw [hmem] at hwf hlocated
  have hconstant : ∀ i, constantZeroCop0 i = true ∨ i = 15 → t.cop0At i = s.cop0At i := fun i hi => by
    obtain ⟨hmask, hbad, hepc⟩ := constant_of_constantZeroCop0 i hi
    exact step_cop0At_of_constant h hmask hbad hepc
  have hcause : t.cop0At causeIdx &&& ~~~ causeWritten = s.cop0At causeIdx &&& ~~~ causeWritten := by
    rw [ht, State.cop0At_of_cop0 e.endTick_cop0, heff.cause_unwritten, State.cop0At_of_cop0 hcop0]
  exact
    { memWf := ht ▸ State.endTick_wf (hwf hs.memWf)
      memLocated := ht ▸ State.endTick_located (hlocated hs.memLocated)
      zeroReg := ht ▸ e.endTick_regs_zero
      slot1Empty := ht ▸ e.endTick_slot1
      slot0Fresh := by rw [ht, State.endTick_slot0]; exact heff.slot0_fresh (by rw [hslot0]; rfl)
      noWriteNoted := ht ▸ e.endTick_directWritten
      notTrapped := ht ▸ e.endTick_trapped
      notRefused := (step_refused h).2
      cop0Zero := fun i hi => (hconstant i (.inl hi)).trans (hs.cop0Zero i hi)
      prid := (hconstant pridIdx (.inr rfl)).trans hs.prid
      causeReserved := hcause.trans hs.causeReserved
      delaySlotAligned := step_delay_slot_aligned h }

/-! ### Reset (R1300) -/

theorem lt_of_mem_cellsFrom {base : Nat} {bytes : List Byte} {c : Host.Cell} (h : c ∈ cellsFrom base bytes) :
    c.1 < base + bytes.length := by
  induction bytes generalizing base with
  | nil => cases h
  | cons b rest ih =>
    rw [List.length_cons]
    rcases List.mem_cons.mp h with rfl | h
    · show base < base + (rest.length + 1)
      omega
    · have := ih h
      omega

/-- The image at reset lies in BIOS ROM, whatever its length. -/
theorem bios_holds_of_mem_image {image : List Byte} {c : Host.Cell}
    (h : c ∈ cellsFrom bios.base (image.take bios.size)) : bios.holds c.1 :=
  ⟨le_of_mem_cellsFrom h, (lt_of_mem_cellsFrom h).trans_le (Nat.add_le_add_left (List.length_take_le _ _) _)⟩

/-- Every other byte reads 0 at reset. -/
theorem State.readByte_resetWithBios_other (image : List Byte) {a : Nat} (ha : ¬ bios.holds a) :
    (State.resetWithBios image).readByte a = 0#8 :=
  Memory.read_writeAll_other _ a (fun c hc he => ha (by rw [← he]; exact bios_holds_of_mem_image hc)) []

theorem State.inv_resetWithBios (image : List Byte) : (State.resetWithBios image).Inv where
  memWf := Memory.wf_writeAll _ ⟨List.Pairwise.nil, fun _ h => nomatch h⟩
  memLocated := Memory.located_writeAll _ (fun _ h => nomatch h) fun _ hc => .inr (.inr (bios_holds_of_mem_image hc))
  zeroReg := rfl
  slot1Empty := rfl
  slot0Fresh := rfl
  noWriteNoted := rfl
  notTrapped := rfl
  notRefused := rfl
  cop0Zero := fun i hi => by
    show resetCop0[i] = 0#32
    revert i; decide
  prid := rfl
  causeReserved := by
    show resetCop0[causeIdx] &&& ~~~ causeWritten = 0#32
    decide
  delaySlotAligned := nofun

end Sys2Proof.Machine

namespace Sys2Proof.Proofs

open Sys2Proof.Machine

/-- Settles O13: the image lies in BIOS ROM, and the registers are closed terms. -/
theorem resetMeetsTheInvariant : Obligations.ResetMeetsTheInvariant := by
  unfold Obligations.ResetMeetsTheInvariant
  exact ⟨State.inv_resetWithBios resetBiosImage, State.inv_resetWithBios⟩

/-- Settles O14, clause by clause from the one effect of a step. -/
theorem stepKeepsTheInvariant : Obligations.StepKeepsTheInvariant := by
  unfold Obligations.StepKeepsTheInvariant
  exact fun _ _ => State.Inv.step

/-- Settles O16: none of them has a writable bit, and exception entry names none of them. -/
theorem constantCop0RegistersNeverChange : Obligations.ConstantCop0RegistersNeverChange := by
  unfold Obligations.ConstantCop0RegistersNeverChange
  intro s t i h hi
  obtain ⟨hmask, hbad, hepc⟩ := constant_of_constantZeroCop0 i hi
  exact step_cop0At_of_constant h hmask hbad hepc

/-- Settles O58: every register is a closed term, and only BIOS ROM holds the image. -/
theorem resetState : Obligations.ResetState := by
  unfold Obligations.ResetState
  intro image
  refine ⟨fun r => ?_, rfl, rfl, rfl, rfl, rfl, rfl, rfl, rfl, fun i => ?_, fun r => ?_, rfl, rfl, fun a ha => ?_⟩
  · show (if r = 0 then 0#32 else resetGprs[r]) = 0#32
    revert r; decide
  · show resetCop0[i] = _
    revert i; decide
  · show readDma resetDma r = _
    cases r with
    | madr c => revert c; decide
    | bcr c => revert c; decide
    | chcr c => revert c; decide
    | dpcr => rfl
    | dicr => rfl
  · refine State.readByte_resetWithBios_other image fun hbios => ?_
    simp only [ByteDevice.holds, ram, scratchpad, bios] at ha hbios
    omega

end Sys2Proof.Proofs
end

section
/-!
PROOFS about the bus (20_memory.md): the region table (R211), masked addresses (R201), the mirrors of scratchpad and BIOS ROM
(R213, R215), narrow reads of a stored word (R203), unmapped space and the I/O stub (R219, R220), the windows of word
registers (R230 to R237), cache isolation (R223) and the DMA pump (R241). First the rules of regions and of byte devices;
then those of the windows; then the statements.
-/

namespace Sys2Proof.Machine

open Sys2Proof.Claims

/-! ### Regions (R211) -/

theorem deviceOf_scratchpad {addr : Word} (hlow : 0x1F800000 ≤ (maskAddress addr).toNat)
    (hhigh : (maskAddress addr).toNat < 0x1F801000) : deviceOf (regionOf (maskAddress addr)) = some scratchpad := by
  have hr : regionOf (maskAddress addr) = .scratchpad := by
    unfold regionOf
    dsimp only
    rw [if_neg (by omega), if_pos ⟨hlow, hhigh⟩]
  rw [hr]; rfl

theorem regionOf_bios {addr : Word} (h : 0x1FC00000 ≤ (maskAddress addr).toNat) : regionOf (maskAddress addr) = .bios := by
  have hlt := maskAddress_lt addr
  unfold regionOf
  dsimp only
  rw [if_neg (by omega), if_neg (by omega), if_neg (by omega), if_neg (by omega), if_neg (by omega), if_pos ⟨h, hlt⟩]

theorem deviceOf_bios {addr : Word} (h : 0x1FC00000 ≤ (maskAddress addr).toNat) :
    deviceOf (regionOf (maskAddress addr)) = some bios := by
  rw [regionOf_bios h]; rfl

/-- A bus access looks at the masked address only (R201). -/
theorem State.busRead_congr {a b : Word} (h : maskAddress a = maskAddress b) (s : State) (width : Width) :
    s.busRead a width = s.busRead b width := by
  unfold State.busRead; rw [h]

/-- A store looks at the gate and at the masked address only (R201, R223). -/
theorem State.busWrite_congr {s : State} {a b : Word} (h : maskAddress a = maskAddress b)
    (hgate : s.isolates a = s.isolates b) (width : Width) (v : Word) : s.busWrite a width v = s.busWrite b width v := by
  unfold State.busWrite; rw [h, hgate]

/-- BIOS ROM takes no store (R216). -/
theorem State.busWrite_of_bios {addr : Word} (h : regionOf (maskAddress addr) = .bios) (s : State) (width : Width)
    (v : Word) : s.busWrite addr width v = .ok s := by
  unfold State.busWrite
  split
  · rfl
  · dsimp only; rw [h]

/-! ### Mirrors (R210, R213, R215) -/

/-- Addresses of one device that agree modulo its size read the same. -/
theorem readDevice_congr {d : ByteDevice} {m n : Word} (h : m.toNat ≡ n.toNat [MOD d.size]) (mem : Memory) (width : Width) :
    readDevice mem d m width = readDevice mem d n width := by
  have hbyte : readDeviceByte mem d m = readDeviceByte mem d n := by
    funext k
    have hcell : d.cell m.toNat k = d.cell n.toNat k := congrArg (d.base + ·) (h.add_right k)
    unfold readDeviceByte
    rw [hcell]
  unfold readDevice
  rw [hbyte]

/-- A masked address is the address modulo 2^29 (R201). -/
theorem toNat_maskAddress (addr : Word) : (maskAddress addr).toNat = addr.toNat % 2 ^ 29 := by
  rw [maskAddress, BitVec.toNat_and]
  exact Nat.and_two_pow_sub_one_eq_mod addr.toNat 29

/-- An address with bit `k` flipped is the same modulo `2^k`, and the same above that bit. -/
theorem maskAddress_flip (addr : Word) {k : Nat} (hk : k < 29) :
    (maskAddress (addr ^^^ BitVec.ofNat 32 (2 ^ k))).toNat ≡ (maskAddress addr).toNat [MOD 2 ^ k] ∧
    (maskAddress (addr ^^^ BitVec.ofNat 32 (2 ^ k))).toNat / 2 ^ (k + 1) = (maskAddress addr).toNat / 2 ^ (k + 1) := by
  have hbit : 2 ^ k < 2 ^ 29 := Nat.pow_lt_pow_right (by decide) hk
  have hflip : (maskAddress (addr ^^^ BitVec.ofNat 32 (2 ^ k))).toNat = (maskAddress addr).toNat ^^^ 2 ^ k := by
    have hword : 2 ^ k % 2 ^ 32 = 2 ^ k := Nat.mod_eq_of_lt (hbit.trans (by decide))
    rw [toNat_maskAddress, toNat_maskAddress, BitVec.toNat_xor, BitVec.toNat_ofNat, hword, Nat.xor_mod_two_pow,
      Nat.mod_eq_of_lt hbit]
  have hbelow : 2 ^ k % 2 ^ k = 0 := Nat.mod_self _
  have habove : 2 ^ k / 2 ^ (k + 1) = 0 := Nat.div_eq_of_lt (Nat.pow_lt_pow_succ (by decide))
  rw [hflip]
  exact ⟨by rw [Nat.ModEq, Nat.xor_mod_two_pow, hbelow, Nat.xor_zero], by rw [Nat.xor_div_two_pow, habove, Nat.xor_zero]⟩

/-- Two addresses of one device that agree modulo its size read the same. -/
theorem State.busRead_of_mirror {a b : Word} {d : ByteDevice} (ha : deviceOf (regionOf (maskAddress a)) = some d)
    (hb : deviceOf (regionOf (maskAddress b)) = some d)
    (h : (maskAddress a).toNat ≡ (maskAddress b).toNat [MOD d.size]) (s : State) (width : Width) :
    s.busRead a width = s.busRead b width := by
  rw [State.busRead_of_device ha, State.busRead_of_device hb, readDevice_congr h]

/-- Flipping bit 10 or 11 of an address in the scratchpad window names the same byte (R213). -/
theorem State.busRead_scratchpad_mirror {addr : Word} (hlow : 0x1F800000 ≤ (maskAddress addr).toNat)
    (hhigh : (maskAddress addr).toNat < 0x1F801000) {k : Nat} (hk : k = 10 ∨ k = 11) (s : State) (width : Width) :
    s.busRead (addr ^^^ BitVec.ofNat 32 (2 ^ k)) width = s.busRead addr width := by
  have hk29 : k < 29 := by omega
  obtain ⟨hmod, hdiv⟩ := maskAddress_flip addr hk29
  have hdvd : scratchpad.size ∣ 2 ^ k := Nat.pow_dvd_pow (m := 10) 2 (by omega)
  have hwindow : (maskAddress (addr ^^^ BitVec.ofNat 32 (2 ^ k))).toNat / 4096 = (maskAddress addr).toNat / 4096 := by
    obtain rfl | rfl := hk
    · omega
    · exact hdiv
  exact State.busRead_of_mirror (deviceOf_scratchpad (by omega) (by omega)) (deviceOf_scratchpad hlow hhigh)
    (hmod.of_dvd hdvd) s width

/-- Flipping bit 19 of an address in the BIOS region names the same byte (R215). -/
theorem State.busRead_bios_mirror {addr : Word} (h : 0x1FC00000 ≤ (maskAddress addr).toNat) (s : State) (width : Width) :
    s.busRead (addr ^^^ 0x80000#32) width = s.busRead addr width := by
  obtain ⟨hmod, hdiv⟩ := maskAddress_flip addr (k := 19) (by decide)
  have hregion : 0x1FC00000 ≤ (maskAddress (addr ^^^ 0x80000#32)).toNat := by
    have hdiv' : (maskAddress (addr ^^^ 0x80000#32)).toNat / 1048576 = (maskAddress addr).toNat / 1048576 := hdiv
    omega
  exact State.busRead_of_mirror (deviceOf_bios hregion) (deviceOf_bios h) hmod s width

/-! ### Inside one aligned word (R203) -/

/-- All boundaries of regions are multiples of 4. -/
theorem regionOf_congr_word {m n : Word} (h : m.toNat / 4 = n.toNat / 4) : regionOf m = regionOf n := by
  have hlt : ∀ c, c % 4 = 0 → (m.toNat < c ↔ n.toNat < c) := fun c hc => by omega
  have hle : ∀ c, c % 4 = 0 → (c ≤ m.toNat ↔ c ≤ n.toNat) := fun c hc => by omega
  unfold regionOf
  simp (disch := decide) only [hlt, hle]

/-- An address inside the aligned word at `a` is that word's, offset by at most 3, in the same region. -/
theorem maskAddress_add {a : Word} (haligned : a &&& 3#32 = 0#32) {k : Nat} (hk : k < 4) :
    (maskAddress (a + BitVec.ofNat 32 k)).toNat = (maskAddress a).toNat + k ∧
    regionOf (maskAddress (a + BitVec.ofNat 32 k)) = regionOf (maskAddress a) := by
  have hmod : a.toNat % 4 = 0 := by
    have h := congrArg BitVec.toNat haligned
    rw [BitVec.toNat_and] at h
    exact (Nat.and_two_pow_sub_one_eq_mod a.toNat 2).symm.trans h
  have hmask : (maskAddress (a + BitVec.ofNat 32 k)).toNat = (maskAddress a).toNat + k := by
    have ha := a.isLt
    rw [toNat_maskAddress, toNat_maskAddress, BitVec.toNat_add, BitVec.toNat_ofNat]
    omega
  refine ⟨hmask, regionOf_congr_word ?_⟩
  rw [hmask, toNat_maskAddress]
  omega

/-- Byte `j` of an access at `m + k` is byte `k + j` of an access at `m`. -/
theorem readDeviceByte_add {m n : Word} {k : Nat} (h : n.toNat = m.toNat + k) (mem : Memory) (d : ByteDevice) (j : Nat) :
    readDeviceByte mem d n j = readDeviceByte mem d m (k + j) := by
  unfold readDeviceByte ByteDevice.cell
  rw [h, Nat.add_assoc]

/-- A byte of a word, as a shift and a mask. -/
theorem byteOfWord_setWidth (v : Word) (k : Nat) : (byteOfWord v k).setWidth 32 = (v >>> (8 * k)) &&& 0xFF#32 := by
  apply BitVec.eq_of_toNat_eq
  have hmask : ((v >>> (8 * k)) &&& 0xFF#32).toNat = (v >>> (8 * k)).toNat % 2 ^ 8 := by
    rw [BitVec.toNat_and]
    exact Nat.and_two_pow_sub_one_eq_mod _ 8
  rw [hmask, BitVec.toNat_setWidth, byteOfWord, BitVec.extractLsb'_toNat, BitVec.toNat_ushiftRight]
  exact Nat.mod_eq_of_lt ((Nat.mod_lt _ (by decide)).trans (by decide))

/-- Two bytes of a word, as a shift and a mask. -/
theorem byteOfWord_append_setWidth (v : Word) (k : Nat) :
    (byteOfWord v (2 * k + 1) ++ byteOfWord v (2 * k)).setWidth 32 = (v >>> (16 * k)) &&& 0xFFFF#32 := by
  apply BitVec.eq_of_toNat_eq
  have hmask : ((v >>> (16 * k)) &&& 0xFFFF#32).toNat = (v >>> (16 * k)).toNat % 2 ^ 16 := by
    rw [BitVec.toNat_and]
    exact Nat.and_two_pow_sub_one_eq_mod _ 16
  have hhigh : v.toNat / 2 ^ (8 * (2 * k + 1)) = v.toNat / 2 ^ (16 * k) / 2 ^ 8 := by
    rw [Nat.div_div_eq_div_mul, ← pow_add]
    congr 2
    ring
  have hlow : v.toNat / 2 ^ (8 * (2 * k)) = v.toNat / 2 ^ (16 * k) := by
    congr 2
    ring
  rw [hmask, BitVec.toNat_setWidth, toNat_append, byteOfWord, byteOfWord, BitVec.extractLsb'_toNat, BitVec.extractLsb'_toNat,
    BitVec.toNat_ushiftRight, Nat.shiftRight_eq_div_pow, Nat.shiftRight_eq_div_pow, Nat.shiftRight_eq_div_pow, hhigh, hlow]
  omega

/-- After a word store at an aligned address of a device, byte `j` of an access at `a + k` is byte `k + j` of the word. -/
theorem readDeviceByte_of_stored_word {a : Word} (haligned : a &&& 3#32 = 0#32) {d : ByteDevice} (hd : 4 ≤ d.size)
    (mem : Memory) (v : Word) {k j : Nat} (hkj : k + j < 4) :
    readDeviceByte (writeDevice mem d (maskAddress a) .word v) d (maskAddress (a + BitVec.ofNat 32 k)) j =
      byteOfWord v (k + j) := by
  rw [readDeviceByte_add (maskAddress_add haligned (by omega)).1]
  exact readDeviceByte_writeDevice hd mem (maskAddress a) v (width := .word) hkj

/-! ### Unmapped space, the I/O stub and the windows of word registers -/

theorem State.busRead_of_unmapped {addr : Word} (hregion : regionOf (maskAddress addr) = .unmapped) (s : State)
    (width : Width) : s.busRead addr width = .ok (s.readUnmapped (maskAddress addr) width) := by
  unfold State.busRead
  dsimp only
  rw [hregion]

/-- An unmapped store records an event, unless the gate takes it (R223, R224). -/
theorem State.busWrite_of_unmapped {addr : Word} (hregion : regionOf (maskAddress addr) = .unmapped) (s : State)
    (width : Width) (v : Word) : ∃ t, s.busWrite addr width v = .ok t ∧ t = { s with outputs := t.outputs } := by
  unfold State.busWrite
  split
  · exact ⟨s, rfl, rfl⟩
  · dsimp only
    rw [hregion]
    exact ⟨_, rfl, rfl⟩

theorem State.busRead_of_ioStub {addr : Word} (hregion : regionOf (maskAddress addr) = .ioStub) (s : State)
    (width : Width) : s.busRead addr width = .ok (ioStubDraw s.draws width, s.nextDraw) := by
  unfold State.busRead
  dsimp only
  rw [hregion]

theorem State.busWrite_of_ioStub {addr : Word} (hregion : regionOf (maskAddress addr) = .ioStub) (s : State)
    (width : Width) (v : Word) : s.busWrite addr width v = .ok s := by
  unfold State.busWrite
  split
  · rfl
  · dsimp only
    rw [hregion]

/-- The DMA hole answers a draw (R232). -/
theorem State.busRead_of_hole {addr : Word} (hregion : regionOf (maskAddress addr) = .dma)
    (hreg : dmaRegAt (maskAddress addr) = none) (s : State) :
    s.busRead addr .word = .ok (Config.drawDmaHole s.draws, s.nextDraw) := by
  unfold State.busRead State.readDmaWord
  dsimp only
  rw [hregion, hreg]; rfl

/-- The DMA hole takes nothing (R232). -/
theorem State.busWrite_of_hole {addr : Word} (hregion : regionOf (maskAddress addr) = .dma)
    (hreg : dmaRegAt (maskAddress addr) = none) (s : State) (v : Word) : s.busWrite addr .word v = .ok s := by
  unfold State.busWrite State.writeDmaWord
  split
  · rfl
  · dsimp only; rw [hregion, hreg]; rfl

theorem State.busRead_of_gpu {addr : Word} (hregion : regionOf (maskAddress addr) = .gpu) (s : State) :
    s.busRead addr .word = .ok (Config.drawGpuRead s.draws, s.nextDraw) := by
  unfold State.busRead
  dsimp only
  rw [hregion]; rfl

theorem State.busWrite_of_gpu {s : State} {addr : Word} (hregion : regionOf (maskAddress addr) = .gpu)
    (hgate : s.isolates addr = false) (v : Word) :
    s.busWrite addr .word v = .ok (s.emit (gpuEvent (maskAddress addr) v)) := by
  unfold State.busWrite
  rw [hgate]
  dsimp only
  rw [hregion]; rfl

/-- A narrow store to the DMA window that the gate lets pass is refused (R233). -/
theorem State.busWrite_narrow_of_dma {s : State} {addr : Word} (hregion : regionOf (maskAddress addr) = .dma)
    (hgate : s.isolates addr = false) {width : Width} (hwidth : width ≠ .word) (v : Word) :
    s.busWrite addr width v = .error .narrowDmaAccess := by
  unfold State.busWrite
  rw [hgate]
  dsimp only
  rw [hregion]
  exact if_neg hwidth

/-- A narrow store to the GPU window that the gate lets pass is refused (R237). -/
theorem State.busWrite_narrow_of_gpu {s : State} {addr : Word} (hregion : regionOf (maskAddress addr) = .gpu)
    (hgate : s.isolates addr = false) {width : Width} (hwidth : width ≠ .word) (v : Word) :
    s.busWrite addr width v = .error .narrowGpuAccess := by
  unfold State.busWrite
  rw [hgate]
  dsimp only
  rw [hregion]
  exact if_neg hwidth

/-- An aligned store that the bus refuses is refused. -/
theorem State.store_of_refusal {s : State} {addr v : Word} {width : Width} {r : Refusal}
    (haligned : width.aligned addr = true) (h : s.busWrite addr width v = .error r) :
    s.store addr width v = .refused r := by
  rw [State.store, if_pos haligned, h]

theorem exec_lh (rt rs : RegIdx) (imm : BitVec 16) (s : State) :
    exec (.lh rt rs imm) s = s.load rt (s.reg rs + imm.signExtend 32) .half sextLow16 := rfl

theorem exec_lhu (rt rs : RegIdx) (imm : BitVec 16) (s : State) :
    exec (.lhu rt rs imm) s = s.load rt (s.reg rs + imm.signExtend 32) .half id := rfl

/-- What the bus says of a narrow access in a window of word registers is what the narrow loads and stores answer. -/
theorem narrow_refused {s : State} {rs : RegIdx} {imm : BitVec 16} {q : Refusal}
    (hread : ∀ {width : Width}, width ≠ .word → s.busRead (s.ea rs imm) width = .error q)
    (hwrite : s.isolates (s.ea rs imm) = false →
      ∀ {width : Width}, width ≠ .word → ∀ v, s.busWrite (s.ea rs imm) width v = .error q) (rt : RegIdx) :
    exec (.lb rt rs imm) s = .refused q ∧ exec (.lbu rt rs imm) s = .refused q ∧
    (s.ea rs imm &&& 1#32 = 0#32 → exec (.lh rt rs imm) s = .refused q ∧ exec (.lhu rt rs imm) s = .refused q) ∧
    (s.isolates (s.ea rs imm) = false → exec (.sb rt rs imm) s = .refused q ∧
      (s.ea rs imm &&& 1#32 = 0#32 → exec (.sh rt rs imm) s = .refused q)) := by
  have hbyte : Width.byte ≠ .word := by decide
  have hhalf : Width.half ≠ .word := by decide
  obtain ⟨hlb, hlbu⟩ := loadByte_of_refusal (hread hbyte) rt
  refine ⟨hlb, hlbu, fun heven => ⟨?_, ?_⟩, fun hgate => ⟨?_, fun heven => ?_⟩⟩
  · exact State.load_of_refusal (width := .half) (beq_iff_eq.mpr heven) (hread hhalf) rt sextLow16
  · exact State.load_of_refusal (width := .half) (beq_iff_eq.mpr heven) (hread hhalf) rt id
  · exact State.store_of_refusal rfl (hwrite hgate hbyte _)
  · exact State.store_of_refusal (beq_iff_eq.mpr heven) (hwrite hgate hhalf _)

/-! ### Cache isolation (R223) -/

/-- With SR.IsC set no bus store changes anything: what the gate does not take goes to BIOS ROM. -/
theorem State.busWrite_of_isolated {s : State} (h : (s.cop0At srIdx).getLsbD 16 = true) (addr : Word) (width : Width)
    (v : Word) : s.busWrite addr width v = .ok s := by
  by_cases hlow : addr.toNat < 0xFFFE0000
  · have hgate : s.isolates addr = true := by rw [State.isolates, h, decide_eq_true hlow]; rfl
    rw [State.busWrite, if_pos hgate]
  · refine State.busWrite_of_bios (regionOf_bios ?_) s width v
    have haddr := addr.isLt
    rw [toNat_maskAddress]
    omega

/-- With SR.IsC set an instruction leaves memory and the DMA registers. -/
theorem exec_of_isolated {i : Instr} {s t : State} (hisc : (s.cop0At srIdx).getLsbD 16 = true)
    (h : exec i s = .next t) : t.mem = s.mem ∧ t.dma = s.dma := by
  obtain ⟨hmem, hdma, -⟩ | ⟨addr, v, width, outs, n, -, hwrite⟩ := (exec_effectOf h).memory_cases
  · exact ⟨hmem, hdma⟩
  · have hsame := (State.busWrite_of_isolated (s := { s with outputs := outs, draws := n }) hisc addr width v).symm.trans hwrite
    cases hsame
    exact ⟨rfl, rfl⟩

/-! ### The DMA pump (R241) -/

/-- With no recognised CHCR the pump does nothing. -/
theorem State.pump_of_idle {s : State}
    (h : ∀ c : Channel, s.dma.chcr[c] = 0#32 ∨ Config.chcrPattern c s.dma.chcr[c] = false) : s.pump = s := by
  have hidle : ¬ pumpActs s.dma = true := by
    intro hacts
    obtain ⟨c, -, hc⟩ := List.any_eq_true.mp hacts
    obtain ⟨hne, hpattern⟩ := Bool.and_eq_true_iff.mp hc
    obtain hzero | hno := h c
    · exact bne_iff_ne.mp hne hzero
    · exact nomatch hpattern.symm.trans hno
  rw [State.pump, if_neg hidle]

theorem State.pump_eq (s : State) : s.pump = { s with dma := s.pump.dma, mem := s.pump.mem, outputs := s.pump.outputs } := by
  unfold State.pump
  split <;> rfl

end Sys2Proof.Machine

namespace Sys2Proof.Proofs

open Sys2Proof.Machine Sys2Proof.Claims

/-- Settles O18: the gate takes the store, or the store goes to BIOS ROM. -/
theorem isolationStopsEveryStore : Obligations.IsolationStopsEveryStore := by
  unfold Obligations.IsolationStopsEveryStore
  refine fun s hisc => ⟨fun addr v width => State.busWrite_of_isolated hisc addr width v, fun i t h => ?_⟩
  obtain ⟨hmem, hdma⟩ := exec_of_isolated hisc h
  exact ⟨hdma, State.readByte_of_mem hmem⟩

/-- Settles O19: the bus sees the masked address only. -/
theorem segmentBitsAreMasked : Obligations.SegmentBitsAreMasked := by
  unfold Obligations.SegmentBitsAreMasked
  exact fun s a b width h => ⟨State.busRead_congr h s width, fun v hgate => State.busWrite_congr h hgate width v⟩

/-- Settles O20: the table's conditions exclude each other. -/
theorem regionTable : Obligations.RegionTable := by
  unfold Obligations.RegionTable
  intro m hm
  unfold regionOf
  dsimp only
  split_ifs <;> simp only [true_iff, false_iff] <;> omega

/-- Settles O22: both are byte devices, seen modulo their size; BIOS ROM takes no store. -/
theorem scratchpadAndBios : Obligations.ScratchpadAndBios := by
  unfold Obligations.ScratchpadAndBios
  intro s addr v width
  refine ⟨fun hlow hhigh => ?_, fun hbios => ?_⟩
  · have hdevice := deviceOf_scratchpad hlow hhigh
    refine ⟨⟨_, State.busRead_of_device hdevice s width, readDevice_toNat s scratchpad addr width⟩,
      State.busRead_scratchpad_mirror hlow hhigh (.inl rfl) s width,
      State.busRead_scratchpad_mirror hlow hhigh (.inr rfl) s width, fun hgate =>
      ⟨_, State.busWrite_of_device hdevice (by decide) hgate width v, rfl, fun k => ?_, fun a ha => ?_⟩⟩
    · exact readDeviceByte_writeDevice (by decide) s.mem (maskAddress addr) v
    · refine read_writeDevice_other fun hmem => ?_
      obtain ⟨k, hk, rfl⟩ := List.mem_map.mp hmem
      exact ha k (List.mem_range.mp hk) rfl
  · exact ⟨⟨_, State.busRead_of_device (deviceOf_bios hbios) s width, readDevice_toNat s bios addr width⟩,
      State.busRead_bios_mirror hbios s width, State.busWrite_of_bios (regionOf_bios hbios) s width v⟩

/-- Settles O23: the narrow accesses stay inside the word stored. -/
theorem narrowReadsOfAStoredWord : Obligations.NarrowReadsOfAStoredWord := by
  unfold Obligations.NarrowReadsOfAStoredWord
  intro s t a v k hregion haligned hgate hwrite
  obtain ⟨d, hdevice, hbios, hsize⟩ :
      ∃ d, deviceOf (regionOf (maskAddress a)) = some d ∧ d ≠ bios ∧ 4 ≤ d.size := by
    obtain h | h := hregion
    · exact ⟨ram, by rw [h]; rfl, by decide, by decide⟩
    · exact ⟨scratchpad, by rw [h]; rfl, by decide, by decide⟩
  rw [State.busWrite_of_device hdevice hbios hgate] at hwrite
  cases hwrite
  have hinside : ∀ n, n < 4 → deviceOf (regionOf (maskAddress (a + BitVec.ofNat 32 n))) = some d := fun n hn => by
    rw [(maskAddress_add haligned hn).2, hdevice]
  have hbyte : ∀ n j, n + j < 4 → _ = byteOfWord v (n + j) := fun n j =>
    readDeviceByte_of_stored_word haligned hsize s.mem v
  refine ⟨fun hk => ?_, fun hk => ?_⟩
  · rw [State.busRead_of_device (hinside k hk), readDevice]
    dsimp only
    rw [hbyte k 0 hk, ← byteOfWord_setWidth]
    rfl
  · rw [State.busRead_of_device (hinside (2 * k) (by omega)), readDevice]
    dsimp only
    rw [hbyte (2 * k) 0 (by omega), hbyte (2 * k) 1 (by omega), ← byteOfWord_append_setWidth]
    rfl

/-- Settles O24, by what the bus answers in each of the two regions. -/
theorem unmappedAndIoStub : Obligations.UnmappedAndIoStub := by
  unfold Obligations.UnmappedAndIoStub
  intro s addr v width
  refine ⟨fun hregion => ⟨⟨_, State.busRead_of_unmapped hregion s .word, rfl⟩, ?_,
    State.busWrite_of_unmapped hregion s width v⟩, fun hregion =>
    ⟨⟨_, State.busRead_of_ioStub hregion s width⟩, State.busWrite_of_ioStub hregion s width v⟩⟩
  rw [State.busRead_of_unmapped hregion]
  cases width with
  | byte => exact ⟨_, _, rfl, rfl⟩
  | half => exact ⟨_, _, rfl, rfl⟩
  | word => exact ⟨_, _, rfl, rfl⟩

/-- Settles O26: the map is computed channel by channel, and the hole and the GPU window are two words each. -/
theorem dmaMapAndGpuWindow : Obligations.DmaMapAndGpuWindow := by
  unfold Obligations.DmaMapAndGpuWindow
  refine ⟨by decide, by decide, by decide, fun s addr v haddr => ?_, fun s addr v haddr => ?_⟩
  · have hhole : regionOf (maskAddress addr) = .dma ∧ dmaRegAt (maskAddress addr) = none := by
      obtain h | h := haddr <;> rw [h] <;> decide
    exact ⟨⟨_, State.busRead_of_hole hhole.1 hhole.2 s⟩, State.busWrite_of_hole hhole.1 hhole.2 s v⟩
  · have hregion : regionOf (maskAddress addr) = .gpu := by obtain h | h := haddr <;> rw [h] <;> decide
    have hevent : gpuEvent (maskAddress addr) v = if maskAddress addr = 0x1F801810#32 then .gp0 v else .gp1 v := by
      obtain h | h := haddr <;> rw [h] <;> rfl
    refine ⟨⟨_, State.busRead_of_gpu hregion s⟩, fun hgate => ?_⟩
    rw [State.busWrite_of_gpu hregion hgate, hevent]
    rfl

/-- Settles O27, by what the bus answers narrow accesses in each of the two windows. -/
theorem narrowAccessesAreRefused : Obligations.NarrowAccessesAreRefused := by
  unfold Obligations.NarrowAccessesAreRefused
  rintro s rt rs imm q (⟨hdma, rfl⟩ | ⟨hgpu, rfl⟩)
  · exact narrow_refused (fun hwidth => State.busRead_narrow_of_dma hdma hwidth s)
      (fun hgate _ hwidth v => State.busWrite_narrow_of_dma hdma hgate hwidth v) rt
  · exact narrow_refused (fun hwidth => State.busRead_narrow_of_gpu hgpu hwidth s)
      (fun hgate _ hwidth v => State.busWrite_narrow_of_gpu hgpu hgate hwidth v) rt

/-- Settles O28: the pump writes RAM cells, and does nothing without a recognised CHCR. -/
theorem pumpIsConfined : Obligations.PumpIsConfined := by
  unfold Obligations.PumpIsConfined
  refine fun s => ⟨State.pump_of_idle, s.pump_eq, fun a ha => s.pump_readByte_other fun hram => ?_⟩
  simp only [ByteDevice.holds, ram] at hram
  omega

end Sys2Proof.Proofs
end

section
/-!
PROOFS about arithmetic (41_arith.md, 42_muldiv.md, 43_logic_shift.md): exact overflow (R511), signed immediates (R507 to
R509), signed division (R602, R611, R612), the moves of `hi` and `lo` (R604 to R607) and the shifts by register (R713 to
R715). First what a trapping instruction does in terms of its exact result; then signed division; then the statements.
-/

namespace Sys2Proof.Machine

open Sys2Proof.Claims

/-! ### Exact results (R511) -/

/-- A 32-bit wrap of a number that fits is the number. -/
theorem bmod_of_fits {x : Int} (h : -2147483648 ≤ x ∧ x < 2147483648) : x.bmod (2 ^ 32) = x :=
  Int.bmod_eq_of_le h.1 h.2

/-- An instruction that traps on `c` and else writes `v`, where `c` says that the exact result `x` does not fit and `v` is
`x` wrapped: it writes `x` exactly when `x` fits. -/
theorem writes_exactly_or_enters {r : Result} {s : State} {c : Bool} {d : RegIdx} {v : Word} {x : Int}
    (h : r = if c then .next (s.enterException .overflow) else .next (s.writeReg d v))
    (hc : c = true ↔ x < -2147483648 ∨ 2147483648 ≤ x) (hv : v.toInt = x.bmod (2 ^ 32)) :
    if -2147483648 ≤ x ∧ x < 2147483648 then ∃ v t, v.toInt = x ∧ r = .next t ∧ DirectWrite s d v t
    else ∃ t, r = .next t ∧ Entered s 12#32 none t := by
  split
  · next hfits =>
    have hclear : ¬ c = true := fun htrap => by
      have := hc.mp htrap
      omega
    rw [if_neg hclear] at h
    exact ⟨v, _, hv.trans (bmod_of_fits hfits), h, s.directWrite_writeReg d v⟩
  · next hfits =>
    rw [if_pos (hc.mpr (by omega))] at h
    exact ⟨_, h, s.entered_enterException .overflow⟩

theorem exec_sub (rd rs rt : RegIdx) (s : State) :
    exec (.sub rd rs rt) s = if subOverflows (s.reg rs) (s.reg rt) then .next (s.enterException .overflow)
      else .next (s.writeReg rd (s.reg rs - s.reg rt)) := rfl

/-! ### Signed immediates -/

theorem exec_addiu (rt rs : RegIdx) (imm : BitVec 16) (s : State) :
    exec (.addiu rt rs imm) s = .next (s.writeReg rt (s.reg rs + imm.signExtend 32)) := rfl

theorem exec_slti (rt rs : RegIdx) (imm : BitVec 16) (s : State) :
    exec (.slti rt rs imm) s = .next (s.writeReg rt (if (s.reg rs).toInt < imm.toInt then 1#32 else 0#32)) := by
  rw [exec, execSlti, wordOfBool_lessSigned, toInt_sext16]

theorem exec_sltiu (rt rs : RegIdx) (imm : BitVec 16) (s : State) :
    exec (.sltiu rt rs imm) s =
      .next (s.writeReg rt (if (s.reg rs).toNat < (imm.signExtend 32).toNat then 1#32 else 0#32)) := by
  rw [exec, execSltiu, wordOfBool_lessUnsigned]
  rfl

/-! ### Signed division (R602, R611, R612) -/

/-- Outside the special cases the quotient fits, and is the truncated one. -/
theorem toInt_signedQuotient {n d : Word} (hd : d ≠ 0#32) (hspecial : ¬ (n = 0x80000000#32 ∧ d = 0xFFFFFFFF#32)) :
    (signedQuotient n d).toInt = n.toInt.tdiv d.toInt := by
  have hne : n ≠ BitVec.intMin 32 ∨ d ≠ -1#32 := not_and_or.mp hspecial
  rw [signedQuotient, if_neg hd, if_neg hspecial, BitVec.toInt_ofInt, ← BitVec.toInt_sdiv,
    BitVec.toInt_sdiv_of_ne_or_ne n d hne]

/-- Outside the special cases the remainder is the one of truncated division. -/
theorem toInt_signedRemainder {n d : Word} (hd : d ≠ 0#32) (hspecial : ¬ (n = 0x80000000#32 ∧ d = 0xFFFFFFFF#32)) :
    (signedRemainder n d).toInt = n.toInt.tmod d.toInt := by
  have hmod : n.toInt - n.toInt.tdiv d.toInt * d.toInt = (n.srem d).toInt := by
    rw [BitVec.toInt_srem, Int.tmod_def, mul_comm]
  rw [signedRemainder, if_neg hd, if_neg hspecial, hmod, BitVec.ofInt_toInt, BitVec.toInt_srem]

/-- A truncated remainder is smaller than the divisor. -/
theorem abs_tmod_lt (n : Int) {d : Int} (hd : d ≠ 0) : |n.tmod d| < |d| := by
  have hlt : (n.tmod d).natAbs < d.natAbs := by
    rw [Int.natAbs_tmod]
    exact Nat.mod_lt _ (Int.natAbs_pos.mpr hd)
  rw [Int.abs_eq_natAbs, Int.abs_eq_natAbs]
  exact_mod_cast hlt

/-- A truncated remainder is zero or of the sign of the dividend. -/
theorem tmod_zero_or_sign (n d : Int) : n.tmod d = 0 ∨ (n.tmod d < 0 ↔ n < 0) := by
  have hsign := Int.sign_tmod n d
  split at hsign
  · exact .inl (Int.sign_eq_zero_iff_zero.mp hsign)
  · exact .inr (by rw [← Int.sign_eq_neg_one_iff_neg, hsign, Int.sign_eq_neg_one_iff_neg])

theorem exec_div (rs rt : RegIdx) (s : State) :
    exec (.div rs rt) s = .next { s with
      hi := signedRemainder (s.reg rs) (s.reg rt)
      lo := signedQuotient (s.reg rs) (s.reg rt) } := rfl

/-! ### Moves and shifts -/

theorem exec_mfhi (rd : RegIdx) (s : State) : exec (.mfhi rd) s = .next (s.writeReg rd s.hi) := rfl

theorem exec_mflo (rd : RegIdx) (s : State) : exec (.mflo rd) s = .next (s.writeReg rd s.lo) := rfl

theorem exec_sllv (rd rt rs : RegIdx) (s : State) :
    exec (.sllv rd rt rs) s = .next (s.writeReg rd (s.reg rt <<< ((s.reg rs).toNat % 32))) := by
  rw [exec, execSllv, shiftCount_eq]

theorem exec_srlv (rd rt rs : RegIdx) (s : State) :
    exec (.srlv rd rt rs) s = .next (s.writeReg rd (s.reg rt >>> ((s.reg rs).toNat % 32))) := by
  rw [exec, execSrlv, shiftCount_eq]

theorem exec_srav (rd rt rs : RegIdx) (s : State) :
    exec (.srav rd rt rs) s = .next (s.writeReg rd ((s.reg rt).sshiftRight ((s.reg rs).toNat % 32))) := by
  rw [exec, execSrav, shiftCount_eq]

end Sys2Proof.Machine

namespace Sys2Proof.Proofs

open Sys2Proof.Machine

/-- Settles O31: the model's overflow tests are exact. -/
theorem overflowIsExact : Obligations.OverflowIsExact := by
  unfold Obligations.OverflowIsExact
  intro s rd rs rt imm
  have haddi := addOverflows_iff (s.reg rs) (sext16 imm)
  rw [toInt_sext16] at haddi
  refine ⟨writes_exactly_or_enters (exec_add rd rs rt s) (addOverflows_iff _ _) (BitVec.toInt_add _ _),
    writes_exactly_or_enters (exec_sub rd rs rt s) (subOverflows_iff _ _) BitVec.toInt_sub,
    writes_exactly_or_enters (exec_addi rt rs imm s) haddi ?_⟩
  rw [BitVec.toInt_add, toInt_sext16]

/-- Settles O32: each of the three answers the state of one direct write. -/
theorem signedImmediates : Obligations.SignedImmediates := by
  unfold Obligations.SignedImmediates
  intro s rt rs imm
  exact ⟨completes_of_writeReg (exec_addiu rt rs imm s), completes_of_writeReg (exec_slti rt rs imm s),
    completes_of_writeReg (exec_sltiu rt rs imm s)⟩

/-- Settles O35: the two special divisors by computation, every other by truncated division. -/
theorem divideSigned : Obligations.DivideSigned := by
  unfold Obligations.DivideSigned
  intro s rs rt
  refine ⟨_, _, exec_div rs rt s, fun hzero => ?_, fun hn hd => ?_, fun hd hspecial => ?_⟩
  · rw [hzero]
    exact ⟨if_pos rfl, if_pos rfl⟩
  · rw [hn, hd]
    exact ⟨rfl, rfl⟩
  · have hd0 : (s.reg rt).toInt ≠ 0 := fun h => hd (BitVec.eq_of_toInt_eq h)
    rw [toInt_signedQuotient hd hspecial, toInt_signedRemainder hd hspecial]
    refine ⟨?_, abs_tmod_lt _ hd0, tmod_zero_or_sign _ _⟩
    rw [mul_comm, Int.mul_tdiv_add_tmod]

/-- Settles O36, each by its own equation. -/
theorem hiLoMoves : Obligations.HiLoMoves := by
  unfold Obligations.HiLoMoves
  exact fun s r => ⟨completes_of_writeReg (exec_mfhi r s), completes_of_writeReg (exec_mflo r s), rfl, rfl⟩

/-- Settles O40: the shifts of O39 at the count of R710. -/
theorem shiftsByRegister : Obligations.ShiftsByRegister := by
  unfold Obligations.ShiftsByRegister
  intro s rd rt rs
  exact ⟨completes_of_writeReg_value (exec_sllv rd rt rs s) (toNat_shiftLeft_word _ _),
    completes_of_writeReg_value (exec_srlv rd rt rs s) (toNat_ushiftRight_word _ _),
    completes_of_writeReg_value (exec_srav rd rt rs s) (toInt_sshiftRight_word _ _)⟩

end Sys2Proof.Proofs
end

section
/-!
PROOFS about loads, partial stores and linking branches (44_load.md, 45_store.md R903 to R905, 46_branch.md R1012 to R1021).
First the bytes of a word and the two merges that LWL, LWR, SWL and SWR share; then the answers of the instructions; then
what the tick between the two loads of a pair leaves; then the statements.
-/

namespace Sys2Proof.Machine

open Sys2Proof.Claims

/-! ### The bytes of a word (R202) -/

theorem byteOfWord_or (a b : Word) (j : Nat) : byteOfWord (a ||| b) j = byteOfWord a j ||| byteOfWord b j :=
  BitVec.extractLsb'_or

theorem byteOfWord_and (a b : Word) (j : Nat) : byteOfWord (a &&& b) j = byteOfWord a j &&& byteOfWord b j :=
  BitVec.extractLsb'_and

theorem byteOfWord_shiftLeft (v : Word) {i j : Nat} (hj : j < 4) :
    byteOfWord (v <<< (8 * i)) j = if i ≤ j then byteOfWord v (j - i) else 0#8 := by
  apply BitVec.eq_of_getLsbD_eq
  intro b hb
  split
  · next hij =>
    have hsub : 8 * j + b - 8 * i = 8 * (j - i) + b := by omega
    have hlt : 8 * j + b < 32 := by omega
    have hle : ¬ 8 * j + b < 8 * i := by omega
    simp only [byteOfWord, BitVec.getLsbD_extractLsb', BitVec.getLsbD_shiftLeft, hb, hlt, hle, hsub, decide_true,
      decide_false, Bool.not_false, Bool.true_and]
  · simp [byteOfWord, show 8 * j + b < 8 * i by omega]

theorem byteOfWord_ushiftRight (v : Word) (i j : Nat) : byteOfWord (v >>> (8 * i)) j = byteOfWord v (j + i) := by
  apply BitVec.eq_of_getLsbD_eq
  intro b hb
  have hadd : 8 * i + (8 * j + b) = 8 * (j + i) + b := by omega
  simp [byteOfWord, hadd]

theorem byteOfWord_of_le (v : Word) {j : Nat} (hj : 4 ≤ j) : byteOfWord v j = 0#8 := by
  apply BitVec.eq_of_getLsbD_eq
  intro b hb
  simp [byteOfWord, BitVec.getLsbD_of_ge v (8 * j + b) (by omega)]

/-- The word whose `i` low bytes are all ones. -/
def lowBytes (i : Nat) : Word := BitVec.ofNat 32 (2 ^ (8 * i) - 1)

theorem byteOfWord_lowBytes {i j : Nat} (hi : i ≤ 4) (hj : j < 4) :
    byteOfWord (lowBytes i) j = if j < i then BitVec.allOnes 8 else 0#8 := by
  interval_cases i <;> interval_cases j <;> rfl

theorem byteOfWord_not_lowBytes {i j : Nat} (hi : i ≤ 4) (hj : j < 4) :
    byteOfWord (~~~ lowBytes i) j = if j < i then 0#8 else BitVec.allOnes 8 := by
  interval_cases i <;> interval_cases j <;> rfl

/-- Words that agree byte by byte are equal. -/
theorem word_ext_byteOfWord {v w : Word} (h : ∀ j, j < 4 → byteOfWord v j = byteOfWord w j) : v = w := by
  rw [← wordOfBytes_byteOfWord v, ← wordOfBytes_byteOfWord w, h 0 (by decide), h 1 (by decide), h 2 (by decide),
    h 3 (by decide)]

/-! ### The two merges (R807, R903) -/

/-- The low bytes of `new` moved up into the bytes from `i` on, `keep` below them. -/
def mergeAbove (i : Nat) (keep new : Word) : Word := (keep &&& lowBytes i) ||| (new <<< (8 * i))

/-- The high bytes of `new` moved down into the `i` low bytes, `keep` above them. -/
def mergeBelow (i : Nat) (keep new : Word) : Word := (keep &&& ~~~ lowBytes i) ||| (new >>> (8 * (4 - i)))

theorem byteOfWord_mergeAbove (keep new : Word) {i j : Nat} (hi : i ≤ 4) (hj : j < 4) :
    byteOfWord (mergeAbove i keep new) j = if i ≤ j then byteOfWord new (j - i) else byteOfWord keep j := by
  rw [mergeAbove, byteOfWord_or, byteOfWord_and, byteOfWord_shiftLeft _ hj, byteOfWord_lowBytes hi hj]
  by_cases hij : i ≤ j
  · rw [if_pos hij, if_pos hij, if_neg (Nat.not_lt.mpr hij), BitVec.and_zero, BitVec.zero_or]
  · rw [if_neg hij, if_neg hij, if_pos (Nat.lt_of_not_le hij), BitVec.and_allOnes, BitVec.or_zero]

theorem byteOfWord_mergeBelow (keep new : Word) {i j : Nat} (hi : i ≤ 4) (hj : j < 4) :
    byteOfWord (mergeBelow i keep new) j = if j < i then byteOfWord new (j + (4 - i)) else byteOfWord keep j := by
  rw [mergeBelow, byteOfWord_or, byteOfWord_and, byteOfWord_ushiftRight, byteOfWord_not_lowBytes hi hj]
  by_cases hji : j < i
  · rw [if_pos hji, if_pos hji, BitVec.and_zero, BitVec.zero_or]
  · have hbeyond : byteOfWord new (j + (4 - i)) = 0#8 := byteOfWord_of_le _ (by omega)
    rw [if_neg hji, if_neg hji, hbeyond, BitVec.and_allOnes, BitVec.or_zero]

theorem lwlMerge_eq (k : BitVec 2) (cur w : Word) : lwlMerge k cur w = mergeAbove (3 - k.toNat) cur w := by
  have hk : k = 0#2 ∨ k = 1#2 ∨ k = 2#2 ∨ k = 3#2 := by revert k; decide
  obtain rfl | rfl | rfl | rfl := hk <;> simp [lwlMerge, mergeAbove, lowBytes]

theorem lwrMerge_eq (k : BitVec 2) (cur w : Word) : lwrMerge k cur w = mergeBelow (4 - k.toNat) cur w := by
  have hk : k = 0#2 ∨ k = 1#2 ∨ k = 2#2 ∨ k = 3#2 := by revert k; decide
  obtain rfl | rfl | rfl | rfl := hk <;> simp [lwrMerge, mergeBelow, lowBytes]

theorem swlMerge_eq (k : BitVec 2) (mem v : Word) : swlMerge k mem v = mergeBelow (k.toNat + 1) mem v := by
  have hk : k = 0#2 ∨ k = 1#2 ∨ k = 2#2 ∨ k = 3#2 := by revert k; decide
  obtain rfl | rfl | rfl | rfl := hk <;> simp [swlMerge, mergeBelow, lowBytes]

theorem swrMerge_eq (k : BitVec 2) (mem v : Word) : swrMerge k mem v = mergeAbove k.toNat mem v := by
  have hk : k = 0#2 ∨ k = 1#2 ∨ k = 2#2 ∨ k = 3#2 := by revert k; decide
  obtain rfl | rfl | rfl | rfl := hk <;> simp [swrMerge, mergeAbove, lowBytes]

theorem toNat_byteLane (ea : Word) : (byteLane ea).toNat = ea.toNat % 4 := by
  rw [byteLane, BitVec.extractLsb'_toNat, Nat.shiftRight_zero]

/-! ### Halfword and word loads (R801, R802, R812 to R814) -/

/-- A misaligned load takes AdEL, whatever the bus would answer. -/
theorem State.load_of_misaligned {s : State} {addr : Word} {width : Width} (h : width.aligned addr = false) (rt : RegIdx)
    (f : Word → Word) : ∃ t, s.load rt addr width f = .next t ∧ Entered s 4#32 (some addr) t := by
  refine ⟨_, ?_, s.entered_enterException (.adel addr)⟩
  rw [State.load, if_neg (ne_true_of_eq_false h)]

/-- Outside the windows of word registers a halfword read answers one halfword, zero-extended. -/
theorem State.busRead_half_answers {addr : Word} (h : inWordWindow addr = false) (s : State) :
    ∃ (b : Half) (u : State), s.busRead addr .half = .ok (b.setWidth 32, u) := by
  unfold inWordWindow at h
  unfold State.busRead
  dsimp only
  cases hregion : regionOf (maskAddress addr) <;> rw [hregion] at h
  case ram => exact ⟨_, _, rfl⟩
  case scratchpad => exact ⟨_, _, rfl⟩
  case ioStub => exact ⟨_, _, rfl⟩
  case dma => cases h
  case gpu => cases h
  case bios => exact ⟨_, _, rfl⟩
  case unmapped => exact ⟨_, _, rfl⟩

/-- Sign-extending the low halfword of a zero-extended halfword sign-extends the halfword (R802). -/
theorem sextLow16_setWidth (b : Half) : sextLow16 (b.setWidth 32) = b.signExtend 32 := by
  have hlow : (b.setWidth 32).extractLsb' 0 16 = b := by
    rw [← BitVec.setWidth_eq_extractLsb' (by decide), BitVec.setWidth_setWidth_of_le b (by decide), BitVec.setWidth_eq]
  rw [sextLow16, hlow]

theorem exec_lw (rt rs : RegIdx) (imm : BitVec 16) (s : State) :
    exec (.lw rt rs imm) s = s.load rt (s.reg rs + imm.signExtend 32) .word id := rfl

/-! ### LWL, LWR, SWL and SWR -/

theorem exec_lwl (rt rs : RegIdx) (imm : BitVec 16) (s : State) :
    exec (.lwl rt rs imm) s = s.load rt (wordBase (s.reg rs + imm.signExtend 32)) .word
      (mergeAbove (3 - (s.reg rs + imm.signExtend 32).toNat % 4) (s.mergeInput rt)) := by
  rw [← toNat_byteLane]
  exact congrArg (s.load rt _ .word) (funext fun w => lwlMerge_eq _ _ w)

theorem exec_lwr (rt rs : RegIdx) (imm : BitVec 16) (s : State) :
    exec (.lwr rt rs imm) s = s.load rt (wordBase (s.reg rs + imm.signExtend 32)) .word
      (mergeBelow (4 - (s.reg rs + imm.signExtend 32).toNat % 4) (s.mergeInput rt)) := by
  rw [← toNat_byteLane]
  exact congrArg (s.load rt _ .word) (funext fun w => lwrMerge_eq _ _ w)

/-- SWL and SWR complete, with one store of the merged word on what the read left (R903). -/
theorem State.storePartial_of_read {s u : State} {ea m : Word} (h : s.busRead (wordBase ea) .word = .ok (m, u))
    (merge : BitVec 2 → Word → Word) :
    ∃ t, s.storePartial ea merge = .next t ∧ Stored u (wordBase ea) .word (merge (byteLane ea) m) t := by
  rw [State.storePartial, h]
  exact State.store_of_busWrite (aligned_wordBase ea) (u.busWrite_word_answers _ _)

theorem exec_swl (rt rs : RegIdx) (imm : BitVec 16) (s : State) :
    exec (.swl rt rs imm) s =
      s.storePartial (s.reg rs + imm.signExtend 32) (fun k mem => mergeBelow (k.toNat + 1) mem (s.reg rt)) := by
  simp only [exec, execSwl, State.ea, sext16, swlMerge_eq]

theorem exec_swr (rt rs : RegIdx) (imm : BitVec 16) (s : State) :
    exec (.swr rt rs imm) s =
      s.storePartial (s.reg rs + imm.signExtend 32) (fun k mem => mergeAbove k.toNat mem (s.reg rt)) := by
  simp only [exec, execSwr, State.ea, sext16, swrMerge_eq]

/-! ### BLEZ, BGTZ and the linking branches -/

theorem exec_blez (rs : RegIdx) (imm : BitVec 16) (s : State) :
    exec (.blez rs imm) s = .next (s.branchIf (decide ((s.reg rs).toInt ≤ 0)) (branchTarget s.pc imm)) := rfl

theorem exec_bgtz (rs : RegIdx) (imm : BitVec 16) (s : State) :
    exec (.bgtz rs imm) s = .next (s.branchIf (decide (0 < (s.reg rs).toInt)) (branchTarget s.pc imm)) := rfl

theorem exec_bltzal (rs : RegIdx) (imm : BitVec 16) (s : State) :
    exec (.bltzal rs imm) s = .next ((s.writeReg linkReg (linkAddress s.pc)).branchIf
      (decide ((s.reg rs).toInt < 0)) (branchTarget s.pc imm)) := rfl

theorem exec_bgezal (rs : RegIdx) (imm : BitVec 16) (s : State) :
    exec (.bgezal rs imm) s = .next ((s.writeReg linkReg (linkAddress s.pc)).branchIf
      (decide (0 ≤ (s.reg rs).toInt)) (branchTarget s.pc imm)) := rfl

theorem exec_jalr (rd rs : RegIdx) (s : State) :
    exec (.jalr rd rs) s = .next ((s.writeReg rd (linkAddress s.pc)).branchIf true (s.reg rs)) := rfl

/-! ### The pair of LWR and LWL in RAM -/

theorem toNat_wordBase (ea : Word) : (wordBase ea).toNat = ea.toNat / 4 * 4 := by
  have hshift : wordBase ea = (ea >>> 2) <<< 2 := by
    apply BitVec.eq_of_getLsbD_eq
    intro i hi
    interval_cases i <;> simp [wordBase]
  have hea := ea.isLt
  rw [hshift, toNat_shiftLeft_word, toNat_ushiftRight_word]
  omega

theorem byteOfWord_wordOfBytes (b : Nat → Byte) {j : Nat} (hj : j < 4) :
    byteOfWord (wordOfBytes (b 0) (b 1) (b 2) (b 3)) j = b j := by
  apply BitVec.eq_of_toNat_eq
  have h0 := (b 0).isLt
  have h1 := (b 1).isLt
  have h2 := (b 2).isLt
  have h3 := (b 3).isLt
  simp only [wordOfBytes, byteOfWord, BitVec.extractLsb'_toNat, toNat_append, Nat.shiftRight_eq_div_pow]
  interval_cases j <;> omega

/-- The aligned word around an address of RAM, byte by byte. -/
theorem State.busRead_wordBase_of_ram {ea : Word} {p : Nat} (hmask : (maskAddress ea).toNat = p) (hp : p < 0x200000)
    (s : State) : ∃ w, s.busRead (wordBase ea) .word = .ok (w, s) ∧
      ∀ j, j < 4 → byteOfWord w j = s.readByte (p / 4 * 4 + j) := by
  have hbase : (maskAddress (wordBase ea)).toNat = p / 4 * 4 := by
    rw [toNat_maskAddress] at hmask
    rw [toNat_maskAddress, toNat_wordBase]
    omega
  refine ⟨_, State.busRead_of_device (deviceOf_ram (by omega)) s .word, fun j hj => ?_⟩
  have hcell : ram.cell (maskAddress (wordBase ea)).toNat j = p / 4 * 4 + j := by
    rw [hbase]
    simp only [ByteDevice.cell, ram]
    omega
  rw [← hcell]
  exact byteOfWord_wordOfBytes (readDeviceByte s.mem ram (maskAddress (wordBase ea))) hj

/-- LWR at `p` issues the bytes of RAM from `p` to the end of the aligned word, over the merge input's high bytes. -/
theorem exec_lwr_of_ram {s : State} {rs : RegIdx} {imm : BitVec 16} {p : Nat}
    (hmask : (maskAddress (s.reg rs + imm.signExtend 32)).toNat = p) (hp : p < 0x200000) (rt : RegIdx) :
    ∃ v, exec (.lwr rt rs imm) s = .next (s.delayLoad rt v) ∧
      ∀ j, j < 4 → byteOfWord v j = if j < 4 - p % 4 then s.readByte (p + j) else byteOfWord (s.mergeInput rt) j := by
  obtain ⟨w, hread, hw⟩ := s.busRead_wordBase_of_ram hmask hp
  have hlane : (s.reg rs + imm.signExtend 32).toNat % 4 = p % 4 := by
    rw [toNat_maskAddress] at hmask
    omega
  refine ⟨mergeBelow (4 - p % 4) (s.mergeInput rt) w, ?_, fun j hj => ?_⟩
  · rw [exec_lwr, hlane, State.load, if_pos (aligned_wordBase _), hread]
  · rw [byteOfWord_mergeBelow _ _ (by omega) hj]
    split
    · rw [hw _ (by omega)]
      congr 1
      omega
    · rfl

/-- LWL at `p + 3` issues the bytes of RAM from the start of the aligned word to `p + 3`, over the merge input's low bytes. -/
theorem exec_lwl_of_ram {s : State} {rs : RegIdx} {imm : BitVec 16} {p : Nat}
    (hmask : (maskAddress (s.reg rs + imm.signExtend 32)).toNat = p + 3) (hp : p + 3 < 0x200000) (rt : RegIdx) :
    ∃ v, exec (.lwl rt rs imm) s = .next (s.delayLoad rt v) ∧
      ∀ j, j < 4 → byteOfWord v j =
        if 3 - (p + 3) % 4 ≤ j then s.readByte (p + j) else byteOfWord (s.mergeInput rt) j := by
  obtain ⟨w, hread, hw⟩ := s.busRead_wordBase_of_ram hmask hp
  have hlane : (s.reg rs + imm.signExtend 32).toNat % 4 = (p + 3) % 4 := by
    rw [toNat_maskAddress] at hmask
    omega
  refine ⟨mergeAbove (3 - (p + 3) % 4) (s.mergeInput rt) w, ?_, fun j hj => ?_⟩
  · rw [exec_lwl, hlane, State.load, if_pos (aligned_wordBase _), hread]
  · rw [byteOfWord_mergeAbove _ _ (by omega) hj]
    split
    · rw [hw _ (by omega)]
      congr 1
      omega
    · rfl

/-- The end of a tick leaves memory where the pump is idle. -/
theorem State.endTick_mem_of_idle {s : State}
    (hidle : ∀ c : Channel, s.dma.chcr[c] = 0#32 ∨ Config.chcrPattern c s.dma.chcr[c] = false) :
    s.endTick.mem = s.mem := by
  have hdma : s.advancePc.resolveBranch.commitLoad.clearZero.dma = s.dma := by simp
  rw [State.endTick, State.dropTransients_mem, State.pump_of_idle (by rw [hdma]; exact hidle)]
  simp

/-- What the instruction after a load finds: the load in slot1, memory as it was, and a register that no older load was about
to commit to. -/
theorem State.next_tick_of_delayLoad {s s1 : State} {rt rs : RegIdx} {v w : Word} (hrt : rt ≠ 0)
    (hrs : rs = 0 ∨ s.slot1.target ≠ rs ∨ s.slot1.modified = true)
    (hidle : ∀ c : Channel, s.dma.chcr[c] = 0#32 ∨ Config.chcrPattern c s.dma.chcr[c] = false)
    (hfetch : (s.delayLoad rt v).endTick.beginTick.busRead (s.delayLoad rt v).endTick.pc .word = .ok (w, s1)) :
    s1.mem = s.mem ∧ s1.reg rs = s.reg rs ∧ s1.mergeInput rt = v := by
  obtain ⟨hregs, hslot, -⟩ := State.regs_of_fetch hfetch
  refine ⟨?_, ?_, ?_⟩
  · rw [State.busRead_spec hfetch]
    exact (State.beginTick_mem _).trans (State.endTick_mem_of_idle hidle)
  · rw [State.reg_of_regs hregs, State.endTick_reg, if_neg]
    · rfl
    · rintro ⟨htarget, hne, hmodified⟩
      obtain hzero | hother | hover := hrs
      · exact hne hzero
      · exact hother htarget
      · exact nomatch hover.symm.trans hmodified
  · have hpending : s1.slot1 = ⟨rt, v, false, s.pc⟩ := by
      rw [hslot, State.endTick_slot0, State.delayLoad_slot0, if_neg hrt]
    rw [State.mergeInput, hpending, if_pos ⟨rfl, hrt⟩]

/-- A load of the word whose bytes are those from `p` on. -/
theorem State.slot0_of_bytes {s : State} {rt : RegIdx} (hrt : rt ≠ 0) {v : Word} {b : Nat → Byte}
    (hv : ∀ j, j < 4 → byteOfWord v j = b j) :
    (s.delayLoad rt v).slot0.target = rt ∧ (s.delayLoad rt v).slot0.modified = false ∧
    (s.delayLoad rt v).slot0.value = wordOfBytes (b 0) (b 1) (b 2) (b 3) := by
  rw [State.delayLoad_slot0, if_neg hrt]
  exact ⟨rfl, rfl, word_ext_byteOfWord fun j hj => (hv j hj).trans (byteOfWord_wordOfBytes b hj).symm⟩

end Sys2Proof.Machine

namespace Sys2Proof.Proofs

open Sys2Proof.Machine Sys2Proof.Claims

/-- Settles O42, by the alignment of `ea` and by what the bus answers there. -/
theorem loadHalfAndWord : Obligations.LoadHalfAndWord := by
  unfold Obligations.LoadHalfAndWord
  intro s rt rs imm
  rw [exec_lh, exec_lhu, exec_lw]
  refine ⟨fun hodd => ?_, fun hmisaligned => ?_, fun heven hwindow => ?_, fun haligned => ?_⟩
  · have hhalf : Width.half.aligned (s.reg rs + imm.signExtend 32) = false := beq_false_of_ne hodd
    exact ⟨State.load_of_misaligned hhalf rt sextLow16, State.load_of_misaligned hhalf rt id⟩
  · exact State.load_of_misaligned (width := .word) (beq_false_of_ne hmisaligned) rt id
  · obtain ⟨b, u, hread⟩ := State.busRead_half_answers hwindow s
    refine ⟨b, u, hread, ?_, ?_⟩
    · rw [← sextLow16_setWidth b]
      exact State.load_of_read (width := .half) (beq_iff_eq.mpr heven) hread rt sextLow16
    · exact State.load_of_read (width := .half) (beq_iff_eq.mpr heven) hread rt id
  · obtain ⟨v, u, hread⟩ := s.busRead_word_answers (s.reg rs + imm.signExtend 32)
    exact ⟨v, u, hread, State.load_of_read (width := .word) (beq_iff_eq.mpr haligned) hread rt id⟩

/-- Settles O43: each is a load of the aligned word through its merge. -/
theorem loadLeftAndRight : Obligations.LoadLeftAndRight := by
  unfold Obligations.LoadLeftAndRight
  intro s rt rs imm
  rw [exec_lwl, exec_lwr]
  obtain ⟨w, u, hread⟩ := s.busRead_word_answers (wordBase (s.reg rs + imm.signExtend 32))
  have haligned := aligned_wordBase (s.reg rs + imm.signExtend 32)
  obtain ⟨tl, hlwl, hloadl⟩ := State.load_of_read haligned hread rt
    (mergeAbove (3 - (s.reg rs + imm.signExtend 32).toNat % 4) (s.mergeInput rt))
  obtain ⟨tr, hlwr, hloadr⟩ := State.load_of_read haligned hread rt
    (mergeBelow (4 - (s.reg rs + imm.signExtend 32).toNat % 4) (s.mergeInput rt))
  refine ⟨w, s.mergeInput rt, u, hread, rfl, ⟨_, tl, hlwl, hloadl, fun j hj => ?_⟩, ⟨_, tr, hlwr, hloadr, fun j hj => ?_⟩⟩
  · exact byteOfWord_mergeAbove _ _ (by omega) hj
  · rw [byteOfWord_mergeBelow _ _ (by omega) hj, Nat.sub_sub_self (by omega)]

/-- Settles O44: the bytes that the second load of the pair does not bring are those that the first one did. -/
theorem unalignedLoadPair : Obligations.UnalignedLoadPair := by
  unfold Obligations.UnalignedLoadPair
  intro s rt rs imm imm3 p hrt hrs hidle hmask hp himm
  have hlow : (maskAddress (s.reg rs + imm.signExtend 32)).toNat = p := by
    rw [hmask, BitVec.toNat_ofNat]
    omega
  have hhigh : (maskAddress (s.reg rs + imm3.signExtend 32)).toNat = p + 3 := by
    rw [toNat_maskAddress] at hlow
    rw [himm, ← BitVec.add_assoc, toNat_maskAddress, BitVec.toNat_add, BitVec.toNat_ofNat]
    omega
  refine ⟨?_, ?_⟩
  · obtain ⟨v, hexec, hv⟩ := exec_lwr_of_ram hlow (by omega) rt
    refine ⟨_, hexec, fun w s1 hfetch => ?_⟩
    obtain ⟨hmem, hreg, hmerge⟩ := State.next_tick_of_delayLoad hrt hrs hidle hfetch
    obtain ⟨x, hexec', hx⟩ := exec_lwl_of_ram (s := s1) (by rw [hreg]; exact hhigh) hp rt
    refine ⟨_, hexec', State.slot0_of_bytes hrt (b := fun j => s.readByte (p + j)) fun j hj => ?_⟩
    rw [hx j hj, hmerge, hv j hj, State.readByte_of_mem hmem]
    split
    · rfl
    · rw [if_pos (by omega)]
  · obtain ⟨v, hexec, hv⟩ := exec_lwl_of_ram hhigh hp rt
    refine ⟨_, hexec, fun w s1 hfetch => ?_⟩
    obtain ⟨hmem, hreg, hmerge⟩ := State.next_tick_of_delayLoad hrt hrs hidle hfetch
    obtain ⟨x, hexec', hx⟩ := exec_lwr_of_ram (s := s1) (p := p) (by rw [hreg]; exact hlow) (by omega) rt
    refine ⟨_, hexec', State.slot0_of_bytes hrt (b := fun j => s.readByte (p + j)) fun j hj => ?_⟩
    rw [hx j hj, hmerge, hv j hj, State.readByte_of_mem hmem]
    split
    · rfl
    · rw [if_pos (by omega)]

/-- Settles O46: each stores its merge of the word it read. -/
theorem storeLeftAndRight : Obligations.StoreLeftAndRight := by
  unfold Obligations.StoreLeftAndRight
  intro s rt rs imm
  rw [exec_swl, exec_swr]
  obtain ⟨m, u, hread⟩ := s.busRead_word_answers (wordBase (s.reg rs + imm.signExtend 32))
  obtain ⟨tl, hswl, hstoredl⟩ := State.storePartial_of_read hread fun k mem => mergeBelow (k.toNat + 1) mem (s.reg rt)
  obtain ⟨tr, hswr, hstoredr⟩ := State.storePartial_of_read hread fun k mem => mergeAbove k.toNat mem (s.reg rt)
  refine ⟨m, u, hread, ⟨_, tl, hswl, hstoredl, fun j hj => ?_⟩, ⟨_, tr, hswr, hstoredr, fun j hj => ?_⟩⟩
  · have hfrom : ∀ k, j + (4 - (k + 1)) = 3 - k + j := fun k => by omega
    rw [toNat_byteLane, byteOfWord_mergeBelow _ _ (by omega) hj]
    simp only [Nat.lt_succ_iff, hfrom]
  · rw [toNat_byteLane, byteOfWord_mergeAbove _ _ (by omega) hj]

/-- Settles O49: each is one branchIf, for the linking three after the direct write of the return address. -/
theorem zeroBranchesAndLinks : Obligations.ZeroBranchesAndLinks := by
  unfold Obligations.ZeroBranchesAndLinks
  intro s rd rs imm
  exact ⟨completes_of_branchIf (exec_blez rs imm s), completes_of_branchIf (exec_bgtz rs imm s),
    completes_of_link_branchIf (exec_bltzal rs imm s), completes_of_link_branchIf (exec_bgezal rs imm s),
    completes_of_link_branchIf (exec_jalr rd rs s)⟩

end Sys2Proof.Proofs
end

section
/-!
PROOFS about the executable side-load (70_reset_and_hazards.md R1306). First the cells of the payload and the registers the
header sets; then what a side-load that fits answers; then the statement.
-/

namespace Sys2Proof.Machine

/-! ### The header's words (R1306) -/

theorem toNat_wordOfBytes (b0 b1 b2 b3 : Byte) :
    (wordOfBytes b0 b1 b2 b3).toNat = b0.toNat + 0x100 * b1.toNat + 0x10000 * b2.toNat + 0x1000000 * b3.toNat := by
  simp only [wordOfBytes, toNat_append]
  omega

theorem le32_of_getElem? {file : List Byte} {o : Nat} {b0 b1 b2 b3 : Byte} (h0 : file[o]? = some b0)
    (h1 : file[o + 1]? = some b1) (h2 : file[o + 2]? = some b2) (h3 : file[o + 3]? = some b3) :
    le32 file o = wordOfBytes b0 b1 b2 b3 := by
  simp only [le32, List.getD_eq_getElem?_getD, h0, h1, h2, h3, Option.getD_some]

/-! ### The cells of the payload (R1306) -/

theorem map_fst_cellsFrom (base : Nat) (bytes : List Byte) :
    (cellsFrom base bytes).map Prod.fst = List.range' base bytes.length := by
  induction bytes generalizing base with
  | nil => rfl
  | cons b rest ih => exact congrArg (base :: ·) (ih (base + 1))

theorem mem_cellsFrom_of_getElem? {bytes : List Byte} {k : Nat} {b : Byte} (h : bytes[k]? = some b) (base : Nat) :
    (base + k, b) ∈ cellsFrom base bytes := by
  induction bytes generalizing base k with
  | nil => cases h
  | cons x rest ih =>
    cases k with
    | zero =>
      obtain rfl : x = b := Option.some.inj h
      exact List.mem_cons_self
    | succ k =>
      rw [← Nat.add_assoc, Nat.add_right_comm]
      exact List.mem_cons_of_mem _ (ih h (base + 1))

theorem ram_cell (m k : Nat) : ram.cell m k = (m + k) % 0x200000 := Nat.zero_add _

/-- The cells of a payload of at most 2 MiB do not meet. -/
theorem nodup_payloadCells {payload : List Byte} (hlen : payload.length ≤ ram.size) (dest : Word) :
    ((payloadCells dest payload).map Prod.fst).Nodup := by
  have haddr : (payloadCells dest payload).map Prod.fst =
      (List.range' 0 payload.length).map (ram.cell dest.toNat) := by
    rw [← map_fst_cellsFrom, payloadCells, List.map_map, List.map_map]
    rfl
  rw [haddr]
  refine (List.nodup_range' ..).map_on fun j hj k hk heq => ?_
  have hlt : ∀ {i}, i ∈ List.range' 0 payload.length → i < ram.size := fun hi => by
    have := List.mem_range'_1.mp hi
    omega
  have hmod : dest.toNat + j ≡ dest.toNat + k [MOD ram.size] := Nat.add_left_cancel heq
  exact (hmod.add_left_cancel' dest.toNat).eq_of_lt_of_lt (hlt hj) (hlt hk)

/-- Byte `k` of a payload of at most 2 MiB stands at its RAM address. -/
theorem Memory.read_payloadCells {payload : List Byte} (hlen : payload.length ≤ ram.size) {k : Nat} {b : Byte}
    (h : payload[k]? = some b) (dest : Word) (m : Memory) :
    (m.writeAll (payloadCells dest payload)).read (ram.cell dest.toNat k) = b := by
  have hmem : (ram.cell dest.toNat k, b) ∈ payloadCells dest payload :=
    List.mem_map.mpr ⟨(k, b), Nat.zero_add k ▸ mem_cellsFrom_of_getElem? h 0, rfl⟩
  exact Memory.read_writeAll_of_mem (nodup_payloadCells hlen dest) hmem m

/-- A byte at no address of the payload stays. -/
theorem Memory.read_payloadCells_other {payload : List Byte} {dest : Word} {a : Nat}
    (h : ∀ k, k < payload.length → a ≠ ram.cell dest.toNat k) (m : Memory) :
    (m.writeAll (payloadCells dest payload)).read a = m.read a := by
  refine Memory.read_writeAll_other _ _ (fun c hc heq => ?_) m
  obtain ⟨d, hd, rfl⟩ := List.mem_map.mp hc
  exact h d.1 (Nat.zero_add payload.length ▸ lt_of_mem_cellsFrom hd) heq.symm

/-! ### The registers of the header (R1306) -/

theorem State.putReg_eq_regs (s : State) (i : RegIdx) (v : Word) :
    s.putReg i v = { s with regs := (s.putReg i v).regs } := by
  unfold State.putReg
  split
  · rfl
  · rfl

theorem State.applyStackPointer_eq_regs (s : State) (sp : Word) :
    s.applyStackPointer sp = { s with regs := (s.applyStackPointer sp).regs } := by
  unfold State.applyStackPointer
  split
  · rfl
  · rfl

theorem State.reg_applyStackPointer (s : State) (sp : Word) (r : RegIdx) :
    (s.applyStackPointer sp).reg r = if (r = 29 ∨ r = 30) ∧ sp ≠ 0#32 then sp else s.reg r := by
  unfold State.applyStackPointer
  by_cases hsp : sp = 0#32
  · rw [if_pos hsp, if_neg fun h => h.2 hsp]
  · rw [if_neg hsp, State.reg_putReg, State.reg_putReg]
    by_cases h29 : r = 29
    · subst h29; simp [hsp]
    · by_cases h30 : r = 30
      · subst h30; simp [hsp]
      · simp [h29, h30]

/-! ### The side-load (R1306) -/

/-- The payload of an executable: the bytes of the file that the side-load copies to RAM. -/
def payloadOf (unit : SizeUnit) (file : List Byte) : List Byte :=
  (file.drop payloadOffset).take (payloadBytes unit (le32 file 0x1C))

theorem length_payloadOf {unit : SizeUnit} {file : List Byte} (h : exeFits unit file = true) :
    (payloadOf unit file).length = payloadBytes unit (le32 file 0x1C) := by
  have := exeFits_iff.mp h
  rw [payloadOf, List.length_take, List.length_drop]
  omega

theorem getElem?_payloadOf {unit : SizeUnit} {file : List Byte} {k : Nat}
    (hk : k < payloadBytes unit (le32 file 0x1C)) : (payloadOf unit file)[k]? = file[payloadOffset + k]? := by
  rw [payloadOf, List.getElem?_take_of_lt hk, List.getElem?_drop]

/-- What the side-load of a file that fits answers: the payload in memory, the header's registers, nothing pending. -/
theorem State.sideLoad_of_exeFits {unit : SizeUnit} {file : List Byte} (h : exeFits unit file = true) (s : State) :
    ∃ t, s.sideLoad unit file = some t ∧
      t = { s with mem := t.mem, regs := t.regs, pc := le32 file 0x10, branch := false,
                   slot0 := Slot.empty, slot1 := Slot.empty } ∧
      t.mem = s.mem.writeAll (payloadCells (le32 file 0x18) (payloadOf unit file)) ∧
      ∀ r, t.reg r = ((s.putReg 28 (le32 file 0x14)).applyStackPointer (le32 file 0x30)).reg r := by
  unfold State.sideLoad
  rw [if_pos h]
  refine ⟨_, rfl, ?_, ?_, fun r => ?_⟩
  · rw [State.applyStackPointer_eq_regs, State.putReg_eq_regs]
  · rw [State.applyStackPointer_eq_regs, State.putReg_eq_regs]
    rfl
  · refine Eq.trans (State.reg_applyStackPointer _ _ r) (Eq.trans ?_ (State.reg_applyStackPointer _ _ r).symm)
    rw [State.reg_putReg, State.reg_putReg]
    rfl

theorem State.sideLoad_none_of_short {unit : SizeUnit} {file : List Byte} (h : exeFits unit file = false) (s : State) :
    s.sideLoad unit file = none := by
  rw [← Option.isNone_iff_eq_none, ← Option.not_isSome, State.sideLoad_isSome, h]
  rfl

end Sys2Proof.Machine

namespace Sys2Proof.Proofs

open Sys2Proof.Machine

/-- Settles O59: the registers are the header's in turn, and the cells of a payload of at most 2 MiB do not meet. -/
theorem sideLoad : Obligations.SideLoad := by
  unfold Obligations.SideLoad
  intro s unit file n hn
  obtain rfl : n = payloadBytes unit (le32 file 0x1C) := hn.trans (payloadBytes_eq_ite _ _).symm
  refine ⟨fun o b0 b1 b2 b3 h0 h1 h2 h3 => ?_, fun hshort => ?_, fun hfits => ?_⟩
  · rw [le32_of_getElem? h0 h1 h2 h3, toNat_wordOfBytes]
  · exact State.sideLoad_none_of_short (exeFits_eq_false_iff.mpr hshort) s
  · have hfits : exeFits unit file = true := exeFits_iff.mpr hfits
    obtain ⟨t, hload, hframe, hmem, hreg⟩ := State.sideLoad_of_exeFits hfits s
    have hreg : ∀ r, t.reg r = if (r = 29 ∨ r = 30) ∧ le32 file 0x30 ≠ 0#32 then le32 file 0x30
        else if r = 28 ∧ r ≠ 0 then le32 file 0x14 else s.reg r := fun r => by
      rw [hreg, State.reg_applyStackPointer, State.reg_putReg]
    have hlen := length_payloadOf hfits
    refine ⟨t, hload, hframe, ?_, ?_, ?_, fun r h28 h29 h30 => ?_, fun hsize k b hk hb => ?_, fun a ha => ?_⟩
    · simp [hreg]
    · simp [hreg, ite_not]
    · simp [hreg, ite_not]
    · simp [hreg, h28, h29, h30]
    · show t.mem.read _ = b
      rw [hmem, ← ram_cell]
      exact Memory.read_payloadCells (hlen.trans_le hsize) ((getElem?_payloadOf hk).trans hb) _ _
    · show t.mem.read a = s.mem.read a
      rw [hmem]
      exact Memory.read_payloadCells_other (fun k hk => ram_cell _ _ ▸ ha k (hlen ▸ hk)) _

end Sys2Proof.Proofs
end
